-- ==== Sys2Proof/Config.lean ====
section
/-! DEFINITION. What an implementation of SHA256D-CORE fixes (spec 00_scope.md R5, R6). ADDR_W, which R6 makes an argument
of the model, is a field of State, so that every statement is about every width; here stands its default. No value of this
hardware is left free by the spec after a completed operation, so no free value stands here. -/

namespace Sys2Proof

/-- The default of `ADDR_W`, the width in bits of a message-memory address (R6, D4; log 7). -/
abbrev Config.defaultAddrW : Nat := 64

/-- `LEN_W`, the width of `SRC_LEN` (R6, R27). -/
abbrev Config.lenW : Nat := 61

end Sys2Proof
end

