-- ==== Sys2Proof/Word.lean ====
section
/-! DEFINITION. Words, bytes and the eight-word register file shape (spec 00_scope.md R7, R8). -/

namespace Sys2Proof

/-- A word is 32 bits (R7). Addition of words is `add32`, modulo 2^32 (R8): `BitVec`'s `+`. -/
abbrev Word := BitVec 32

/-- A byte is 8 bits (R7). -/
abbrev Byte := BitVec 8

/-- A message-memory address: an unsigned number, only ever added to and compared, in unbounded integers (R60, R85). Its
width `ADDR_W` is a parameter of the machine, `State.addrW` (log 7). -/
abbrev Addr := Nat

/-- A message length in bytes, 61 bits (R27). -/
abbrev Len := BitVec Config.lenW

/-- Eight words. For `V` the fields are the spec's aliases `a = V[0]` to `h = V[7]` (R22); for `H` and `IV` field `a`
is element 0 and field `h` element 7 (R21, R28). -/
structure Words8 where
  a : Word
  b : Word
  c : Word
  d : Word
  e : Word
  f : Word
  g : Word
  h : Word
  deriving DecidableEq, Repr

/-- Element `j` of the array. -/
def Words8.get (x : Words8) (j : Fin 8) : Word :=
  match j with
  | 0 => x.a
  | 1 => x.b
  | 2 => x.c
  | 3 => x.d
  | 4 => x.e
  | 5 => x.f
  | 6 => x.g
  | 7 => x.h

end Sys2Proof
end

