-- ==== Sys2Proof/Syntax.lean ====
section
/-! DEFINITION. The operations of SHA256D-CORE: the two commands and the nine micro-operations (the rows of
spec/opcode_table.json), the two forms their codes take, and the moves of the agents outside the block. -/

namespace Sys2Proof

/-- One constructor per row of the opcode table. No row has an operand field: every operand is implicit (R81, R84, R85). -/
inductive Instr where
  /-- `SHA256`, format CMD (R173). -/
  | sha256
  /-- `SHA256D`, format CMD (R174). -/
  | sha256d
  /-- `IDLE`, PHASE code 0 (R170). -/
  | idle
  /-- `INIT`, PHASE code 1 (R105). -/
  | init
  /-- `LOAD`, PHASE code 2 (R106). -/
  | load
  /-- `EXPAND`, PHASE code 3 (R123). -/
  | expand
  /-- `SETUP`, PHASE code 4 (R130). -/
  | setup
  /-- `ROUND`, PHASE code 5 (R136). -/
  | round
  /-- `CHAIN`, PHASE code 6 (R137). -/
  | chain
  /-- `XFER`, PHASE code 7 (R161). -/
  | xfer
  /-- `FINISH`, PHASE code 8 (R151). -/
  | finish
  deriving DecidableEq, Repr

/-- An encoded operation: a 32-bit word written to register 0 (format CMD, R81) or the 4-bit sequencer code (format
PHASE, R84). -/
inductive Code where
  | cmd (word : BitVec 32)
  | phase (code : BitVec 4)
  deriving DecidableEq, Repr

/-- A move made outside the block, as its agent sends it (R80, R87; R68 and R235 for memory; R230 for reset). -/
inductive HostMove where
  /-- `WR n, v`: write the value `v` to host register `n` (R80). -/
  | wr (n v : Nat)
  /-- `RD n`: read host register `n` (R80). -/
  | rd (n : Nat)
  /-- `RD DIGEST`: read all 32 bytes of the result (R87, R177). -/
  | rdDigest
  /-- `WAIT VALID`: read STATUS until bit 1 is 1 (R87, R176; log 3). -/
  | waitValid
  /-- The host or another agent stores a byte in message memory (R68, R179). -/
  | memStore (addr : Addr) (byte : Byte)
  /-- The host or another agent frees or unmaps a byte of message memory (R235 row 4). -/
  | memUnmap (addr : Addr)
  /-- The reset input is asserted and released (R230, R232). -/
  | reset
  /-- No outside move at this turn: the sequencer moves (R214; log 1). -/
  | pass
  deriving DecidableEq, Repr

/-- A host register that can be read (R80). -/
inductive ReadReg where
  | status
  | srcAddr
  | srcLen
  | digestWord (j : Fin 8)
  deriving DecidableEq, Repr

/-- An outside move after decoding, with whole-register values of the register's own width. -/
inductive HostAction where
  | setSrcAddr (v : Addr)
  | setSrcLen (v : Len)
  | read (r : ReadReg)
  | readDigest
  /-- A poll of STATUS that finds VALID set and so ends `WAIT VALID`. -/
  | pollDone
  | memStore (addr : Addr) (byte : Byte)
  | memUnmap (addr : Addr)
  | reset
  deriving DecidableEq, Repr

/-- What a write move means: a command word, or an action on a register (R80, R82). -/
inductive RegWrite where
  | command (i : Instr)
  | action (a : HostAction)
  deriving DecidableEq, Repr

/-- A value a read returns to the host (R175, R177, R178). -/
inductive HostValue where
  | status (w : Word)
  | srcAddr (v : Addr)
  | srcLen (v : Len)
  | digestWord (j : Fin 8) (w : Word)
  | digest (bytes : Vector Byte 32)
  deriving DecidableEq, Repr

end Sys2Proof
end

