-- ==== Sys2Proof/Machine/State.lean ====
section
/-! DEFINITION. The state of one SHA256D-CORE with the agents around it, the reasons a step can stop, and the state after
reset (spec 10_state.md R20 to R40, 70_reset_and_hazards.md R230). -/

namespace Sys2Proof.Machine

/-- Faults. There is none: the block "raises no synchronous exception, ever", it has no fault signal, and a model "has no
fault outcome for any sequencer step" (R210, R215; log 6). A contract violation is a refusal. -/
inductive Fault where
  deriving DecidableEq, Repr

/-- Why a move has no successor state. Each is safe: the model stops where the hardware's behaviour is not defined. -/
inductive Refusal where
  /-- Raised by no arm of this model: an instruction without a meaning would be named here. Safe. -/
  | notModelled (mnemonic : String)
  /-- A command start whose range wraps or is not readable memory, a message byte unmapped while BUSY = 1, or a LOAD
  that meets an unreadable byte (R62, R106, R212, R235). Safe. -/
  | badDescriptor
  /-- A store to a byte of the message range while BUSY = 1 (R68, R212). Safe. -/
  | messageModified
  /-- A write of 2^61 or more to SRC_LEN (R27, R212). Safe. -/
  | lengthTooLarge
  /-- A command start or a read of SRC_ADDR or SRC_LEN before they were written: R37 says that
  a model refuses it and substitutes no zero (R172, R178, R212, U6). Safe. -/
  | unwrittenDescriptor
  /-- A CMD write while BUSY = 1 (R172, R212). Safe. -/
  | commandWhileBusy
  /-- A SRC_ADDR or SRC_LEN write while BUSY = 1 (R171, R212). Safe. -/
  | writeWhileBusy
  /-- A reserved command word or register access (R83, R212). Safe. -/
  | reservedEncoding
  /-- A read of DIGEST while VALID = 0 (R177, R212). Safe. -/
  | digestNotValid
  /-- A write of 2^ADDR_W or more to SRC_ADDR, or a store or an unmapping at such an address (R60; log 11). Safe. -/
  | addressTooLarge
  /-- LOAD with BLK not below NBLK, EXPAND with T outside 16..63, ROUND with T outside 0..63: operands the rules give no
  effect, in states no run reaches (R84, R102, R123, R136, R231; log 10). Safe. -/
  | positionOutOfRange
  /-- The sequencer at a PHASE code 9 to 15, which no rule produces (R84, R231; log 10). Safe. -/
  | unusedPhase
  deriving DecidableEq, Repr

/-- Message memory: the readable bytes by address, addresses strictly rising. An unlisted address is not readable memory
(R60, R62; log 8). -/
abbrev Memory := List Host.Cell

/-- The state. The first fields are the block's (R20); `mem`, `agenda` and `answers` belong to the agents around it,
`addrW` is the machine's parameter. -/
structure State where
  /-- `PHASE`, the code of the micro-operation the sequencer performs next (R34, R84). -/
  phase : BitVec 4
  /-- `PASS`: true (1) in the second Engine pass (R32). -/
  pass : Bool
  /-- `BLK`, the index of the block being absorbed (R33). -/
  blk : BitVec 56
  /-- `T`, the schedule and round index (R33). -/
  t : BitVec 7
  /-- `MODE`: true (1) for SHA256D (R32). -/
  mode : Bool
  /-- `STATUS.BUSY` (R31). -/
  busy : Bool
  /-- `STATUS.VALID` (R31). -/
  valid : Bool
  /-- `SRC_ADDR`, host register 2 (R26). -/
  srcAddr : Addr
  /-- `SRC_LEN`, host register 3 (R27). -/
  srcLen : Len
  /-- SRC_ADDR has been written since reset (R37, R172 condition 3; log 5). -/
  addrWritten : Bool
  /-- SRC_LEN has been written since reset (R37, R172 condition 3; log 5). -/
  lenWritten : Bool
  /-- `H[0..7]`, the Compression State (R21). -/
  h : Words8
  /-- `V[0..7]`, the working variables `a..h` (R22). -/
  v : Words8
  /-- `W[0..63]`, the Message Schedule (R23). -/
  w : Vector Word 64
  /-- `MID[0..31]`, the intermediate digest (R24). -/
  mid : Vector Byte 32
  /-- `DIGEST[0..31]`, the result (R25). -/
  digest : Vector Byte 32
  /-- `ADDR_W`, the width of an address: the model's argument (R6, U14), which every operation that needs it takes from here
  and no step changes (log 7). -/
  addrW : Nat
  /-- Message memory (R60). -/
  mem : Memory
  /-- The outside moves still to come, in the order they happen (R12, R214; log 1). -/
  agenda : List HostMove
  /-- What the host's reads have returned, newest first (R175, R177, R178; log 2). -/
  answers : List HostValue
  deriving DecidableEq, Repr

/-- The state right after reset (R40, R230): IDLE, BUSY = 0, VALID = 0, nothing written since reset. Every element R40
calls unspecified is named 0 here. DESIGN CHOICE, unsafe (log 4). -/
def State.reset : State where
  h := ⟨0, 0, 0, 0, 0, 0, 0, 0⟩
  v := ⟨0, 0, 0, 0, 0, 0, 0, 0⟩
  w := Vector.replicate 64 0
  mid := Vector.replicate 32 0
  digest := Vector.replicate 32 0
  srcAddr := 0
  srcLen := 0
  addrWritten := false
  lenWritten := false
  busy := false
  valid := false
  mode := false
  pass := false
  blk := 0
  t := 0
  phase := 0
  addrW := Config.defaultAddrW
  mem := []
  agenda := []
  answers := []

/-- What the next step performs: an instruction or an outside action, each on the state it acts on, or a refusal. -/
inductive Fetched where
  | instr (i : Instr) (s : State)
  | action (a : HostAction) (s : State)
  | refuse (r : Refusal)
  deriving DecidableEq, Repr

end Sys2Proof.Machine
end

