-- ==== Sys2Proof/Machine/Ops.lean ====
section
/-! DEFINITION. The named operations over words, bytes, memory and the host's side of the state. Every place that shifts,
orders bytes, reads or writes message memory, or answers the host goes through these. There is no operation that takes an
exception or returns from one: the hardware has neither (spec 60_exceptions.md R210, R215, R216). -/

namespace Sys2Proof.Machine

/-! ### Names of the PHASE codes (R34, R84) -/

@[simp] abbrev phaseIdle : BitVec 4 := 0#4
@[simp] abbrev phaseInit : BitVec 4 := 1#4
@[simp] abbrev phaseLoad : BitVec 4 := 2#4
@[simp] abbrev phaseExpand : BitVec 4 := 3#4
@[simp] abbrev phaseSetup : BitVec 4 := 4#4
@[simp] abbrev phaseRound : BitVec 4 := 5#4
@[simp] abbrev phaseChain : BitVec 4 := 6#4
@[simp] abbrev phaseXfer : BitVec 4 := 7#4
@[simp] abbrev phaseFinish : BitVec 4 := 8#4

/-! ### Word operations (R8, R9) -/

/-- Logical right shift, zeros enter at bit 31 (R9). -/
def shr (x : Word) (n : Nat) : Word := x >>> n

/-- Rotate right by `n`, `0 < n < 32` (R9). -/
def rotr (x : Word) (n : Nat) : Word := shr x n ||| (x <<< (32 - n))

/-- Word-by-word `add32` of two arrays of eight (R8, R137). -/
def addWords (x y : Words8) : Words8 where
  a := x.a + y.a
  b := x.b + y.b
  c := x.c + y.c
  d := x.d + y.d
  e := x.e + y.e
  f := x.f + y.f
  g := x.g + y.g
  h := x.h + y.h

/-! ### Byte order: big-endian throughout (R10, R64) -/

/-- `BE32`: the first byte is the most significant (R10). -/
def be32 (b0 b1 b2 b3 : Byte) : Word := b0 ++ b1 ++ b2 ++ b3

/-- Byte `i` of `BYTES32(w)`, `i = 0` the most significant (R10, R150). -/
def byte32 (w : Word) (i : Nat) : Byte := (w >>> (8 * (3 - i))).setWidth 8

/-- Byte `i` of `BYTES64(v)`, `i = 0` the most significant (R10). -/
def byte64 (v : BitVec 64) (i : Nat) : Byte := (v >>> (8 * (7 - i))).setWidth 8

/-- `ser(H)`: the 32 bytes of the eight words in order (R150). -/
def ser (x : Words8) : Vector Byte 32 :=
  Vector.ofFn fun k => byte32 (x.get ⟨k.val / 4, by omega⟩) (k.val % 4)

/-- Byte `i` of a 32-byte buffer, `i` in 0..31 (R24, R25); the buffer has no other byte and no rule asks for one. -/
def byteAt (d : Vector Byte 32) (i : Nat) : Byte := d[i]?.getD 0

/-- `DIGESTW[j]`: the big-endian word of digest bytes `4j .. 4j+3` (R25). -/
def digestWord (d : Vector Byte 32) (j : Fin 8) : Word :=
  be32 (byteAt d (4 * j.val)) (byteAt d (4 * j.val + 1)) (byteAt d (4 * j.val + 2)) (byteAt d (4 * j.val + 3))

/-! ### Message memory (R60, R62; log 8) -/

/-- The canonical form: addresses strictly rising. -/
def Memory.wf (m : Memory) : Bool :=
  match m with
  | [] => true
  | (a, _) :: rest =>
    rest.all (fun c => decide (a < c.1)) && Memory.wf rest

/-- Every listed address is an `addrW`-bit address (R60). -/
def Memory.within (m : Memory) (addrW : Nat) : Bool := m.all fun c => decide (c.1 < 2 ^ addrW)

/-- The byte at `a`, if `a` is readable memory. -/
def Memory.read (m : Memory) (a : Nat) : Option Byte :=
  match m with
  | [] => none
  | (k, b) :: rest => if k = a then some b else Memory.read rest a

/-- Store a byte, keeping the canonical form. -/
def Memory.write (m : Memory) (a : Nat) (v : Byte) : Memory :=
  match m with
  | [] => [(a, v)]
  | (k, b) :: rest =>
    if a < k then (a, v) :: (k, b) :: rest
    else if a = k then (a, v) :: rest
    else (k, b) :: Memory.write rest a v

/-- Make `a` unreadable. -/
def Memory.unmap (m : Memory) (a : Nat) : Memory :=
  match m with
  | [] => []
  | (k, b) :: rest => if k = a then Memory.unmap rest a else (k, b) :: Memory.unmap rest a

/-- Is every address of `[a, a + n)` readable? One walk along the rising addresses. -/
def Memory.covers (m : Memory) (a n : Nat) : Bool :=
  match m with
  | [] => decide (n = 0)
  | (k, _) :: rest =>
    if n = 0 then true
    else if k < a then Memory.covers rest a n
    else if k = a then Memory.covers rest (a + 1) (n - 1)
    else false

/-- `MemRead(a, 1)` (R60, R11): the address is an unbounded integer. -/
def State.memRead (s : State) (a : Nat) : Option Byte := s.mem.read a

/-! ### The message range (R62, R68) -/

/-- Is `a` in `[SRC_ADDR, SRC_ADDR + SRC_LEN)`? -/
def State.inMessage (s : State) (a : Addr) : Bool :=
  decide (s.srcAddr ≤ a) && decide (a < s.srcAddr + s.srcLen.toNat)

/-- Is `a` an address of message memory? (R60) -/
def State.isAddress (s : State) (a : Addr) : Bool := decide (a < 2 ^ s.addrW)

/-- `addr + len <= 2^width`: the range does not pass the top of a `width`-bit address space (R62). -/
def rangeFits (width addr len : Nat) : Bool := decide (addr + len ≤ 2 ^ width)

/-! ### The host's side (R175 to R178; log 1, 2) -/

/-- The state with the host's pending moves replaced. -/
def State.withAgenda (s : State) (rest : List HostMove) : State := { s with agenda := rest }

/-- Return a value to the host. -/
def State.answer (s : State) (v : HostValue) : State := { s with answers := v :: s.answers }

/-- The block as reset leaves it; memory, the host's side and the parameter are not the block's (R230, R232; log 16). -/
def State.resetBlock (s : State) : State :=
  { State.reset with addrW := s.addrW, mem := s.mem, agenda := s.agenda, answers := s.answers }

end Sys2Proof.Machine
end

