-- ==== Sys2Proof/Machine/Flags.lean ====
section
/-! DEFINITION. The block's only flags, BUSY and VALID (spec 10_state.md R31): how they are read, and the two changes they
undergo. No arithmetic operation sets a flag (R8, R31). -/

namespace Sys2Proof.Machine

/-- The word a read of STATUS returns: bit 0 BUSY, bit 1 VALID, bits 31:2 zero (R31, R175). -/
def State.statusWord (s : State) : Word :=
  (BitVec.ofBool s.valid ++ BitVec.ofBool s.busy).setWidth 32

/-- Command start: BUSY set, VALID cleared (R173, R174). -/
def State.markStarted (s : State) : State := { s with busy := true, valid := false }

/-- FINISH: VALID set, BUSY cleared (R151). -/
def State.markFinished (s : State) : State := { s with busy := false, valid := true }

end Sys2Proof.Machine
end

