-- ==== Sys2Proof/Machine/Operands.lean ====
section
/-! DEFINITION. The operand forms: the current message and its length, the block count, the padded message, the
schedule and ROM words, and the command descriptor (spec 40_padding_and_block_load.md R100 to R103, 20_memory.md R62,
30_encoding.md R85). -/

namespace Sys2Proof.Machine

/-- `NBLK` as a function of the message length (R101). -/
def nblkOf (len : Nat) : Nat := (len + 8) / 64 + 1

/-- `L`, the length of the current message (R100). -/
def State.messageLen (s : State) : Nat := if s.pass then 32 else s.srcLen.toNat

/-- `NBLK` of the current message (R101). -/
def State.nblk (s : State) : Nat := nblkOf s.messageLen

/-- `m[j]`, from memory in pass 1 and from `MID` in pass 2 (R103). Only LOAD asks for it, after `blockReadable` has said
that the byte is there. -/
def State.messageByte (s : State) (j : Nat) : Byte :=
  if s.pass then byteAt s.mid j else (s.memRead (s.srcAddr + j)).getD 0

/-- `PB(j)` for a message of `len < 2^61` bytes given by `m`, `0 <= j < 64 * NBLK` (R102). The machine asks for no other
length; for one, `8 * len` is taken modulo 2^64, the model's choice (log 22). -/
def padByte (len : Nat) (m : Nat → Byte) (j : Nat) : Byte :=
  if j < len then m j
  else if j = len then 0x80#8
  else if j < 64 * nblkOf len - 8 then 0x00#8
  else byte64 (BitVec.ofNat 64 (8 * len)) (j - (64 * nblkOf len - 8))

/-- Word `k` of block `BLK` of the padded message (R106). -/
def State.blockWord (s : State) (k : Nat) : Word :=
  let o := 64 * s.blk.toNat + 4 * k
  be32 (padByte s.messageLen s.messageByte o) (padByte s.messageLen s.messageByte (o + 1))
    (padByte s.messageLen s.messageByte (o + 2)) (padByte s.messageLen s.messageByte (o + 3))

/-- The number of message bytes in block `BLK`: `max(0, min(64, L - 64*BLK))` (R106). -/
def State.blockBytes (s : State) : Nat := min 64 (s.messageLen - 64 * s.blk.toNat)

/-- Can LOAD read every message byte of block `BLK`? In pass 2 nothing is read from memory (R66, R106). -/
def State.blockReadable (s : State) : Bool :=
  s.pass || (List.range s.blockBytes).all fun i => (s.memRead (s.srcAddr + 64 * s.blk.toNat + i)).isSome

/-- `W[i]` for `i` in 0..63 (R23); the array has no other element and no rule asks for one. -/
def wordAt (w : Vector Word 64) (i : Nat) : Word := w[i]?.getD 0

/-- The descriptor is valid: the range does not wrap and every byte of it is readable memory (R62). -/
def State.descriptorValid (s : State) : Bool :=
  rangeFits s.addrW s.srcAddr s.srcLen.toNat && s.mem.covers s.srcAddr s.srcLen.toNat

end Sys2Proof.Machine
end

