-- ==== Sys2Proof/Machine/Commands.lean ====
section
/-! DEFINITION. The two commands, SHA256 and SHA256D, and the idle sequencer (spec 45_host_commands.md R170 to R174). -/

namespace Sys2Proof.Machine

/-- What a legal command start writes, `MODE` being 0 for SHA256 and 1 for SHA256D (R173, R174). -/
def State.started (s : State) (mode : Bool) : State :=
  { s.markStarted with mode := mode, pass := false, phase := phaseInit }

/-- A command start under conditions 2 to 4 of R172, tried in the table's order (log 9). Condition 1 is the decoder's,
condition 5 is checked where a byte is stored. A start before the descriptor is written has no successor state: R37, R212
and U6 refuse it. -/
def startCommand (mode : Bool) (s : State) : Host.Outcome State Fault Refusal :=
  if s.busy then .refused .commandWhileBusy
  else if !(s.addrWritten && s.lenWritten) then .refused .unwrittenDescriptor
  else if !s.descriptorValid then .refused .badDescriptor
  else .next (s.started mode)

/-- `SHA256` (R173). -/
def execSha256 (s : State) : Host.Outcome State Fault Refusal := startCommand false s

/-- `SHA256D` (R174). -/
def execSha256d (s : State) : Host.Outcome State Fault Refusal := startCommand true s

/-- `IDLE`: nothing changes while idle (R170; log 19). -/
def execIdle (s : State) : Host.Outcome State Fault Refusal := .next s

end Sys2Proof.Machine
end

