-- ==== Sys2Proof/Machine/Composer.lean ====
section
/-! DEFINITION. The Double-Hash Composer's micro-operation XFER (spec 44_composer.md R161). -/

namespace Sys2Proof.Machine

/-- What XFER writes (R161). -/
def State.afterXfer (s : State) : State := { s with mid := ser s.h, pass := true, phase := phaseInit }

/-- `XFER` (R161). -/
def execXfer (s : State) : Host.Outcome State Fault Refusal := .next s.afterXfer

end Sys2Proof.Machine
end

