-- ==== Sys2Proof/Machine/Compression.lean ====
section
/-! DEFINITION. The 64-round compression datapath: the micro-operations SETUP, ROUND and CHAIN (spec
42_compression_rounds.md R130 to R137). -/

namespace Sys2Proof.Machine

/-- What SETUP writes (R130). -/
def State.afterSetup (s : State) : State := { s with v := s.h, t := 0, phase := phaseRound }

/-- `SETUP` (R130). -/
def execSetup (s : State) : Host.Outcome State Fault Refusal := .next s.afterSetup

/-- Big sigma 0 (R132). -/
def bsig0 (x : Word) : Word := rotr x 2 ^^^ rotr x 13 ^^^ rotr x 22

/-- Big sigma 1 (R133). -/
def bsig1 (x : Word) : Word := rotr x 6 ^^^ rotr x 11 ^^^ rotr x 25

/-- Choice (R134). -/
def ch (x y z : Word) : Word := (x &&& y) ^^^ (~~~x &&& z)

/-- Majority (R135). -/
def maj (x y z : Word) : Word := (x &&& y) ^^^ (x &&& z) ^^^ (y &&& z)

/-- One round with round constant `k` and schedule word `w`; every right-hand side reads the old values, `T1` and `T2`
are wires (R136). -/
def roundStep (x : Words8) (k w : Word) : Words8 :=
  let t1 := x.h + bsig1 x.e + ch x.e x.f x.g + k + w
  let t2 := bsig0 x.a + maj x.a x.b x.c
  { a := t1 + t2, b := x.a, c := x.b, d := x.c, e := x.d + t1, f := x.e, g := x.f, h := x.g }

/-- What ROUND writes (R136). -/
def State.afterRound (s : State) : State :=
  { s with
    v := roundStep s.v (kAt s.t.toNat) (wordAt s.w s.t.toNat)
    phase := if s.t = 63#7 then phaseChain else phaseRound
    t := s.t + 1 }

/-- `ROUND`, whose operand `T` is in 0..63 (R84, R136; log 10). -/
def execRound (s : State) : Host.Outcome State Fault Refusal :=
  if s.t.toNat ≤ 63 then .next s.afterRound else .refused .positionOutOfRange

/-- Are there more blocks after block `BLK`? (R137) -/
def State.moreBlocks (s : State) : Bool := decide (s.blk.toNat + 1 < s.nblk)

/-- What CHAIN writes: the chaining sum and the sequencer's only decisions (R137). -/
def State.afterChain (s : State) : State :=
  { s with
    h := addWords s.h s.v
    blk := if s.moreBlocks then s.blk + 1 else s.blk
    phase :=
      if s.moreBlocks then phaseLoad
      else if s.mode && !s.pass then phaseXfer
      else phaseFinish }

/-- `CHAIN` (R137). -/
def execChain (s : State) : Host.Outcome State Fault Refusal := .next s.afterChain

end Sys2Proof.Machine
end

