-- ==== Sys2Proof/Machine/Output.lean ====
section
/-! DEFINITION. The output serialiser's micro-operation FINISH (spec 43_output.md R151). -/

namespace Sys2Proof.Machine

/-- What FINISH writes, all at once (R151). -/
def State.afterFinish (s : State) : State :=
  { s.markFinished with digest := ser s.h, phase := phaseIdle }

/-- `FINISH` (R151). -/
def execFinish (s : State) : Host.Outcome State Fault Refusal := .next s.afterFinish

end Sys2Proof.Machine
end

