-- ==== Sys2Proof/Machine/Padding.lean ====
section
/-! DEFINITION. The micro-operations INIT and LOAD (spec 40_padding_and_block_load.md R105, R106). -/

namespace Sys2Proof.Machine

/-- What INIT writes (R105). -/
def State.afterInit (s : State) : State := { s with h := iv, blk := 0, phase := phaseLoad }

/-- `INIT` (R105). -/
def execInit (s : State) : Host.Outcome State Fault Refusal := .next s.afterInit

/-- What LOAD writes: `W[0..15]`, with `W[16..63]` untouched (R106). -/
def State.afterLoad (s : State) : State :=
  { s with
    w := Vector.ofFn fun k => if k.val < 16 then s.blockWord k.val else s.w[k.val]
    t := 16
    phase := phaseExpand }

/-- `LOAD` (R106). `PB` is defined below `64 * NBLK` only (R102; log 10), and reading a byte the platform cannot serve is
the contract violation of R62. -/
def execLoad (s : State) : Host.Outcome State Fault Refusal :=
  if s.nblk ≤ s.blk.toNat then .refused .positionOutOfRange
  else if !s.blockReadable then .refused .badDescriptor
  else .next s.afterLoad

end Sys2Proof.Machine
end

