-- ==== Sys2Proof/Machine/Schedule.lean ====
section
/-! DEFINITION. The message-schedule expander and its micro-operation EXPAND (spec 41_message_schedule.md R120 to R123). -/

namespace Sys2Proof.Machine

/-- Small sigma 0 (R121). -/
def ssig0 (x : Word) : Word := rotr x 7 ^^^ rotr x 18 ^^^ shr x 3

/-- Small sigma 1 (R122). -/
def ssig1 (x : Word) : Word := rotr x 17 ^^^ rotr x 19 ^^^ shr x 10

/-- The recurrence for `W[t]`, `16 <= t <= 63` (R120, R123). -/
def scheduleWord (w : Vector Word 64) (t : Nat) : Word :=
  ssig1 (wordAt w (t - 2)) + wordAt w (t - 7) + ssig0 (wordAt w (t - 15)) + wordAt w (t - 16)

/-- What EXPAND writes (R123). -/
def State.afterExpand (s : State) : State :=
  { s with
    w := s.w.setIfInBounds s.t.toNat (scheduleWord s.w s.t.toNat)
    phase := if s.t = 63#7 then phaseSetup else phaseExpand
    t := s.t + 1 }

/-- `EXPAND`, whose operand `T` is in 16..63 (R84, R123; log 10). -/
def execExpand (s : State) : Host.Outcome State Fault Refusal :=
  if 16 ≤ s.t.toNat ∧ s.t.toNat ≤ 63 then .next s.afterExpand
  else .refused .positionOutOfRange

end Sys2Proof.Machine
end

