-- ==== Sys2Proof/Machine/Dispatch.lean ====
section
/-! DEFINITION. The meaning of each instruction. -/

namespace Sys2Proof.Machine

def exec (i : Instr) (s : State) : Host.Outcome State Fault Refusal :=
  match i with
  | .sha256 => Sys2Proof.Machine.execSha256 s
  | .sha256d => Sys2Proof.Machine.execSha256d s
  | .idle => Sys2Proof.Machine.execIdle s
  | .init => Sys2Proof.Machine.execInit s
  | .load => Sys2Proof.Machine.execLoad s
  | .expand => Sys2Proof.Machine.execExpand s
  | .setup => Sys2Proof.Machine.execSetup s
  | .round => Sys2Proof.Machine.execRound s
  | .chain => Sys2Proof.Machine.execChain s
  | .xfer => Sys2Proof.Machine.execXfer s
  | .finish => Sys2Proof.Machine.execFinish s

end Sys2Proof.Machine
end

