-- ==== Sys2Proof/WellFormed.lean ====
section
/-! DEFINITION. Which terms of the syntax stand for something the spec defines. An instruction has no operand field
(R81, R84), so every instruction is well-formed; a host move is well-formed when format REG gives it a meaning. -/

namespace Sys2Proof

/-- No instruction has a field that could be out of range. -/
def Instr.wellFormed (i : Instr) : Bool :=
  match i with
  | .sha256 => true
  | .sha256d => true
  | .idle => true
  | .init => true
  | .load => true
  | .expand => true
  | .setup => true
  | .round => true
  | .chain => true
  | .xfer => true
  | .finish => true

/-- Register 0 takes the two command words (R82), register 2 an `addrW`-bit value (R26), register 3 a 61-bit value (R27);
registers 1, 2, 3 and 8 to 15 can be read (R80). Everything else in format REG is reserved or does not fit
(R83, R27). A store or an unmapping is at an `addrW`-bit address (R60). -/
def HostMove.wellFormed (addrW : Nat) (m : HostMove) : Bool :=
  match m with
  | .wr n v =>
    (n == 0 && (v == 1 || v == 2)) || (n == 2 && decide (v < 2 ^ addrW)) || (n == 3 && decide (v < 2 ^ Config.lenW))
  | .rd n => n == 1 || n == 2 || n == 3 || (decide (8 ≤ n) && decide (n < 16))
  | .rdDigest => true
  | .waitValid => true
  | .memStore a _ => decide (a < 2 ^ addrW)
  | .memUnmap a => decide (a < 2 ^ addrW)
  | .reset => true
  | .pass => true

end Sys2Proof
end

