-- ==== Sys2Proof/Decode.lean ====
section
/-! DEFINITION. The decoders of formats CMD, PHASE and REG (spec 30_encoding.md R80 to R84), total, rejecting by name,
and the encoders written from the same tables. -/

namespace Sys2Proof

/-- Why an access of format REG has no meaning. -/
inductive DecodeError where
  /-- A reserved command word, a reserved register number or an access in the wrong direction (R83). -/
  | reservedEncoding
  /-- A value of 2^61 or more for SRC_LEN (R27). -/
  | lengthTooLarge
  /-- A value of 2^ADDR_W or more for SRC_ADDR: it is no value of the register (log 11). -/
  | addressTooLarge
  deriving DecidableEq, Repr

/-- Format CMD: every bit is decoded (R82). -/
def decodeCmd (w : BitVec 32) : Option Instr :=
  if w = 0x00000001#32 then some .sha256
  else if w = 0x00000002#32 then some .sha256d
  else none

/-- Format PHASE: codes 0 to 8, 9 to 15 unused (R84). -/
def decodePhase (c : BitVec 4) : Option Instr :=
  if c = 0#4 then some .idle
  else if c = 1#4 then some .init
  else if c = 2#4 then some .load
  else if c = 3#4 then some .expand
  else if c = 4#4 then some .setup
  else if c = 5#4 then some .round
  else if c = 6#4 then some .chain
  else if c = 7#4 then some .xfer
  else if c = 8#4 then some .finish
  else none

/-- The instruction a code stands for. -/
def decode (c : Code) : Option Instr :=
  match c with
  | .cmd w => decodeCmd w
  | .phase p => decodePhase p

/-- Format REG, writes: register 0 takes a command word, 2 and 3 the descriptor; the rest is reserved (R80, R83). A value
that is no 32-bit word is no command word, and one that is no `addrW`-bit number is no address (log 11). -/
def decodeWrite (addrW n v : Nat) : Except DecodeError RegWrite :=
  if n = 0 then
    if v < 2 ^ 32 then
      match decodeCmd (BitVec.ofNat 32 v) with
      | some i => .ok (.command i)
      | none => .error .reservedEncoding
    else .error .reservedEncoding
  else if n = 2 then
    if v < 2 ^ addrW then .ok (.action (.setSrcAddr v))
    else .error .addressTooLarge
  else if n = 3 then
    if v < 2 ^ Config.lenW then .ok (.action (.setSrcLen (BitVec.ofNat Config.lenW v)))
    else .error .lengthTooLarge
  else .error .reservedEncoding

/-- Format REG, reads: registers 1, 2, 3 and 8 to 15; the rest, register 0 among them, is reserved (R80, R83). -/
def decodeRead (n : Nat) : Except DecodeError ReadReg :=
  if n = 1 then .ok .status
  else if n = 2 then .ok .srcAddr
  else if n = 3 then .ok .srcLen
  else if h : 8 ≤ n ∧ n < 16 then .ok (.digestWord ⟨n - 8, by omega⟩)
  else .error .reservedEncoding

/-- The code of an instruction (R82, R84). -/
def encode (i : Instr) : Code :=
  match i with
  | .sha256 => .cmd 0x00000001#32
  | .sha256d => .cmd 0x00000002#32
  | .idle => .phase 0#4
  | .init => .phase 1#4
  | .load => .phase 2#4
  | .expand => .phase 3#4
  | .setup => .phase 4#4
  | .round => .phase 5#4
  | .chain => .phase 6#4
  | .xfer => .phase 7#4
  | .finish => .phase 8#4

/-- The register read of a `RD n` move (R80). -/
def encodeRead (r : ReadReg) : HostMove :=
  match r with
  | .status => .rd 1
  | .srcAddr => .rd 2
  | .srcLen => .rd 3
  | .digestWord j => .rd (8 + j.val)

/-- The code an opcode-table row's bits `w` stand for: rows of format CMD have 32 bits, rows of format PHASE 4 bits,
which is one whole byte whose upper four bits are zero. -/
def tableCode (nbits w : Nat) : Option Code :=
  if nbits = 32 ∧ w < 2 ^ 32 then some (.cmd (BitVec.ofNat 32 w))
  else if (nbits = 8 ∨ nbits = 4) ∧ w < 2 ^ 4 then some (.phase (BitVec.ofNat 4 w))
  else none

/-- The instruction the decoder reads from a table row's bits. -/
def decodeTableWord (nbits w : Nat) : Option Instr :=
  match tableCode nbits w with
  | some c => decode c
  | none => none

end Sys2Proof
end

