-- ==== Sys2Proof/Machine/HostMoves.lean ====
section
/-! DEFINITION. The moves of the agents outside the block: descriptor writes, register reads, message-memory stores, the
reset input (spec 45_host_commands.md R171 to R178, 20_memory.md R68, 70_reset_and_hazards.md R230 to R235). -/

namespace Sys2Proof.Machine

/-- The refusal a decoding error becomes (R83, R27, R212; log 11). -/
def refusalOf (e : DecodeError) : Refusal :=
  match e with
  | .reservedEncoding => .reservedEncoding
  | .lengthTooLarge => .lengthTooLarge
  | .addressTooLarge => .addressTooLarge

/-- What `WR SRC_ADDR, v` writes (R171). -/
def State.withSrcAddr (s : State) (v : Addr) : State := { s with srcAddr := v, addrWritten := true }

/-- What `WR SRC_LEN, v` writes (R171). -/
def State.withSrcLen (s : State) (v : Len) : State := { s with srcLen := v, lenWritten := true }

/-- Message memory after a store to address `a`. -/
def State.withByte (s : State) (a : Addr) (b : Byte) : State := { s with mem := s.mem.write a b }

/-- Message memory after address `a` became unreadable. -/
def State.withoutByte (s : State) (a : Addr) : State := { s with mem := s.mem.unmap a }

/-- `WR SRC_ADDR, v` (R171). -/
def writeSrcAddr (v : Addr) (s : State) : Host.Outcome State Fault Refusal :=
  if s.busy then .refused .writeWhileBusy else .next (s.withSrcAddr v)

/-- `WR SRC_LEN, v` (R171). -/
def writeSrcLen (v : Len) (s : State) : Host.Outcome State Fault Refusal :=
  if s.busy then .refused .writeWhileBusy else .next (s.withSrcLen v)

/-- `RD n` of a readable register: STATUS at any time (R175), the descriptor once written (R178; before that R37 and
U6 say that a model refuses the read), a digest word while
VALID = 1 (R177). A read changes nothing in the block. -/
def readReg (r : ReadReg) (s : State) : Host.Outcome State Fault Refusal :=
  match r with
  | .status => .next (s.answer (.status s.statusWord))
  | .srcAddr => if s.addrWritten then .next (s.answer (.srcAddr s.srcAddr)) else .refused .unwrittenDescriptor
  | .srcLen => if s.lenWritten then .next (s.answer (.srcLen s.srcLen)) else .refused .unwrittenDescriptor
  | .digestWord j => if s.valid then .next (s.answer (.digestWord j (digestWord s.digest j))) else .refused .digestNotValid

/-- `RD DIGEST` (R177). -/
def readDigest (s : State) : Host.Outcome State Fault Refusal :=
  if s.valid then .next (s.answer (.digest s.digest)) else .refused .digestNotValid

/-- A store to message memory, at an address that exists (R60; log 11): no agent may write a byte of the message range while
BUSY = 1 (R68, R172 condition 5). -/
def storeByte (a : Addr) (b : Byte) (s : State) : Host.Outcome State Fault Refusal :=
  if !s.isAddress a then .refused .addressTooLarge
  else if s.busy && s.inMessage a then .refused .messageModified
  else .next (s.withByte a b)

/-- A byte of message memory is unmapped: not in the message range while BUSY = 1 (R235 row 4; log 12). -/
def unmapByte (a : Addr) (s : State) : Host.Outcome State Fault Refusal :=
  if !s.isAddress a then .refused .addressTooLarge
  else if s.busy && s.inMessage a then .refused .badDescriptor
  else .next (s.withoutByte a)

/-- One outside action. -/
def hostAction (a : HostAction) (s : State) : Host.Outcome State Fault Refusal :=
  match a with
  | .setSrcAddr v => writeSrcAddr v s
  | .setSrcLen v => writeSrcLen v s
  | .read r => readReg r s
  | .readDigest => readDigest s
  | .pollDone => readReg .status s
  | .memStore addr byte => storeByte addr byte s
  | .memUnmap addr => unmapByte addr s
  | .reset => .next s.resetBlock

end Sys2Proof.Machine
end

