-- ==== Sys2Proof/Machine/Fetch.lean ====
section
/-! DEFINITION. What the next step performs: the outside move whose turn it is, or the micro-operation PHASE names (spec
10_state.md R34, 30_encoding.md R80 to R84, 60_exceptions.md R214; log 1). -/

namespace Sys2Proof.Machine

/-- The sequencer's turn: the micro-operation PHASE names (R34, R84). -/
def fetchPhase (s : State) : Fetched :=
  match decode (.phase s.phase) with
  | some i => .instr i s
  | none => .refuse .unusedPhase

/-- A register write: a command word is an instruction, a descriptor write an action (R80, R82, R83). -/
def fetchWrite (n v : Nat) (s : State) : Fetched :=
  match decodeWrite s.addrW n v with
  | .ok (.command i) => .instr i s
  | .ok (.action a) => .action a s
  | .error e => .refuse (refusalOf e)

/-- A register read (R80, R83). -/
def fetchRead (n : Nat) (s : State) : Fetched :=
  match decodeRead n with
  | .ok r => .action (.read r) s
  | .error e => .refuse (refusalOf e)

/-- The turn of the first move of the agenda; with no move pending the sequencer moves. `WAIT VALID` stays at the head and
gives the sequencer the turn until VALID is set (R87, R176; log 3). -/
def fetch (s : State) : Fetched :=
  match s.agenda with
  | [] => fetchPhase s
  | .pass :: rest => fetchPhase (s.withAgenda rest)
  | .waitValid :: rest => if s.valid then .action .pollDone (s.withAgenda rest) else fetchPhase s
  | .wr n v :: rest => fetchWrite n v (s.withAgenda rest)
  | .rd n :: rest => fetchRead n (s.withAgenda rest)
  | .rdDigest :: rest => .action .readDigest (s.withAgenda rest)
  | .memStore a b :: rest => .action (.memStore a b) (s.withAgenda rest)
  | .memUnmap a :: rest => .action (.memUnmap a) (s.withAgenda rest)
  | .reset :: rest => .action .reset (s.withAgenda rest)

/-- The sequencer position (PHASE, PASS, BLK, T) that names micro-operation code `c` next (R34, R84): `T` and `BLK` are
kept where they are in the range that micro-operation's rule gives them, and set to its first value where they are not. -/
def State.positioned (s : State) (c : BitVec 4) : State :=
  { s with
    phase := c
    t := if c = phaseExpand ∧ ¬(16 ≤ s.t.toNat ∧ s.t.toNat ≤ 63) then 16
         else if c = phaseRound ∧ ¬(s.t.toNat ≤ 63) then 0
         else s.t
    blk := if c = phaseLoad ∧ s.nblk ≤ s.blk.toNat then 0 else s.blk }

/-- The descriptor counted as written, for a command word placed without the host's descriptor writes (log 17). -/
def State.describedAsIs (s : State) : State := { s with addrWritten := true, lenWritten := true }

/-- The instruction with bits `w` placed so that the next step fetches it: a command word becomes the host's next move, a
PHASE code the sequencer's position, the sequencer having the turn (log 17). -/
def State.placed (s : State) (nbits w : Nat) : State :=
  match tableCode nbits w with
  | some (.cmd word) => s.describedAsIs.withAgenda (.wr 0 word.toNat :: s.agenda)
  | some (.phase c) => (s.positioned c).withAgenda (.pass :: s.agenda)
  | none => s

end Sys2Proof.Machine
end

