-- ==== Sys2Proof/Machine/Step.lean ====
section
/-! DEFINITION. One step of the machine: the fetched instruction or outside action, or a refusal. -/

namespace Sys2Proof.Machine

/-- One atomic move of one agent (spec 60_exceptions.md R214). -/
def step (s : State) : Host.Outcome State Fault Refusal :=
  match fetch s with
  | .instr i s' => exec i s'
  | .action a s' => hostAction a s'
  | .refuse r => .refused r

/-- `s` with the opcode-table instruction whose bits are `w` placed where `step` fetches its next instruction (log 17). -/
def State.withFetchWord (s : State) (nbits w : Nat) : State := s.placed nbits w

end Sys2Proof.Machine
end

