-- ==== Sys2Proof/Machine/Reference.lean ====
section
/-! DEFINITION. The functional level: `sha256` and `sha256d` as pure functions of a byte sequence (spec
46_functional_reference.md R190 to R194). Nothing here mentions the machine's state; the round and sigma functions are the
ones both levels of the spec share. -/

namespace Sys2Proof.Machine

/-- `BYTES64(v)` as a sequence (R10). -/
def bytes64 (v : BitVec 64) : List Byte := (List.range 8).map (byte64 v)

/-- `z`, the number of zero bytes of the padding (R190). -/
def zeroCount (len : Nat) : Nat := 64 * nblkOf len - 9 - len

/-- `pad(m)` for a message shorter than 2^61 bytes (R190). The spec gives a longer one no padding (C2, D5, N9); here it gets
`8 * L` modulo 2^64 as its length field. DESIGN CHOICE (log 22). -/
def pad (m : List Byte) : List Byte :=
  m ++ [0x80#8] ++ List.replicate (zeroCount m.length) 0x00#8 ++ bytes64 (BitVec.ofNat 64 (8 * m.length))

/-- Block `i` of a byte sequence (R191). -/
def blockAt (p : List Byte) (i : Nat) : List Byte := (p.drop (64 * i)).take 64

/-- `blocks(p)` of a sequence of `64 * n` bytes (R191). -/
def blocks (p : List Byte) : List (List Byte) := (List.range (p.length / 64)).map (blockAt p)

/-- The sixteen big-endian words of a block (R138). -/
def blockWords (b : List Byte) : List Word :=
  (List.range 16).map fun k => be32 (b.getD (4 * k) 0) (b.getD (4 * k + 1) 0) (b.getD (4 * k + 2) 0) (b.getD (4 * k + 3) 0)

/-- The next schedule word after the words `ws`, at least sixteen of them (R120). -/
def nextWord (ws : List Word) : Word :=
  let t := ws.length
  ssig1 (ws.getD (t - 2) 0) + ws.getD (t - 7) 0 + ssig0 (ws.getD (t - 15) 0) + ws.getD (t - 16) 0

/-- `n` more words of the schedule (R120). -/
def extend (n : Nat) (ws : List Word) : List Word :=
  match n with
  | 0 => ws
  | n + 1 => extend n (ws ++ [nextWord ws])

/-- The 64-word Message Schedule of a block (R120, R138). -/
def schedule (b : List Byte) : List Word := extend 48 (blockWords b)

/-- The rounds over a list of pairs of round constant and schedule word (R138). -/
def rounds (x : Words8) (kws : List (Word × Word)) : Words8 := kws.foldl (fun x kw => roundStep x kw.1 kw.2) x

/-- `compress(Hin, B)` (R138, R192). -/
def compress (hin : Words8) (b : List Byte) : Words8 := addWords hin (rounds hin (kRom.zip (schedule b)))

/-- The chaining state `H_n` after all blocks of the padded message (R193). -/
def chainBlocks (m : List Byte) : Words8 := (blocks (pad m)).foldl compress iv

/-- `sha256(m)` for a message shorter than 2^61 bytes (R193); on a longer one the value is the model's (log 22). -/
def sha256 (m : List Byte) : List Byte := (ser (chainBlocks m)).toList

/-- `sha256d(m) = sha256(sha256(m))` for a message shorter than 2^61 bytes (R194); on a longer one the value is the model's
(log 22). -/
def sha256d (m : List Byte) : List Byte := sha256 (sha256 m)

end Sys2Proof.Machine
end

