-- ==== Sys2Proof/Safety.lean ====
section
/-! DEFINITION. What counts as a safe run: the well-formedness of a state (spec 70_reset_and_hazards.md R231) and the
premises a command start needs (spec 45_host_commands.md R172), in the terms the claims use. -/

namespace Sys2Proof.Machine

/-- The phases in which BLK is the index of a block being absorbed (R231). -/
def State.absorbing (s : State) : Prop :=
  s.phase = phaseLoad ∨ s.phase = phaseExpand ∨ s.phase = phaseSetup ∨ s.phase = phaseRound ∨ s.phase = phaseChain

/-- Every byte of the message range is readable memory (R62). -/
def State.messageReadable (s : State) : Prop :=
  ∀ j, j < s.srcLen.toNat → (s.memRead (s.srcAddr + j)).isSome

/-- What holds in every state reachable from reset under violation-free behaviour (R231), with what a running command
keeps of the conditions it started under (R62, R68, R172). -/
structure State.Inv (s : State) : Prop where
  /-- PHASE is one of the nine codes 0 to 8. -/
  phase_used : s.phase.toNat ≤ 8
  /-- BUSY = 1 exactly when PHASE is not IDLE. -/
  busy_iff : s.busy = true ↔ s.phase ≠ phaseIdle
  /-- VALID = 1 implies PHASE = IDLE. -/
  valid_idle : s.valid = true → s.phase = phaseIdle
  /-- PASS = 1 implies MODE = 1. -/
  pass_mode : s.pass = true → s.mode = true
  /-- During EXPAND, 16 <= T <= 63. -/
  expand_t : s.phase = phaseExpand → 16 ≤ s.t.toNat ∧ s.t.toNat ≤ 63
  /-- During ROUND, T <= 63. -/
  round_t : s.phase = phaseRound → s.t.toNat ≤ 63
  /-- BLK < NBLK while a block is absorbed. -/
  blk_lt : s.absorbing → s.blk.toNat < s.nblk
  /-- XFER happens in pass 1 of SHA256D only (R161). -/
  xfer_pass : s.phase = phaseXfer → s.mode = true ∧ s.pass = false
  /-- SRC_ADDR is an ADDR_W-bit number (R26). -/
  addr_lt : s.srcAddr < 2 ^ s.addrW
  /-- Memory is in canonical form. -/
  mem_wf : s.mem.wf = true
  /-- Every listed byte has an ADDR_W-bit address (R60). -/
  mem_within : s.mem.within s.addrW = true
  /-- A running command was started on a written descriptor. -/
  written : s.busy = true → s.addrWritten = true ∧ s.lenWritten = true
  /-- The message of a running command does not wrap. -/
  fits : s.busy = true → s.srcAddr + s.srcLen.toNat ≤ 2 ^ s.addrW
  /-- The message of a running command is readable. -/
  readable : s.busy = true → s.messageReadable

/-- Conditions 2 to 4 of R172: a CMD write is a legal command start. -/
structure State.CanStart (s : State) : Prop where
  idle : s.busy = false
  addr_written : s.addrWritten = true
  len_written : s.lenWritten = true
  fits : s.srcAddr + s.srcLen.toNat ≤ 2 ^ s.addrW
  mem_wf : s.mem.wf = true
  readable : s.messageReadable

/-- The message the descriptor describes is the byte sequence `m` (R60). -/
def State.Describes (s : State) (m : List Byte) : Prop :=
  m.length = s.srcLen.toNat ∧ ∀ j, j < m.length → s.memRead (s.srcAddr + j) = some (m.getD j 0)

end Sys2Proof.Machine
end

