-- ==== Sys2Proof/Certificates/Slice0/Obligations.lean ====
section
/-! DEFINITION. The statements for the provers. Each docstring names the rules of spec/ it formalises or rests on. -/

open Sys2Proof Sys2Proof.Machine

/-! ### Encodings -/

/-- R82, R84 and the table of 95_test_vectors.md section 9: sample codes and register accesses, written out bit by bit. -/
def Obligations.SampleCodesDecode : Prop :=
  decode (.cmd 0b00000000000000000000000000000001#32) = some .sha256 ∧
  decode (.cmd 0b00000000000000000000000000000010#32) = some .sha256d ∧
  decode (.cmd 0x00000000#32) = none ∧ decode (.cmd 0x00000003#32) = none ∧
  decode (.cmd 0x00000101#32) = none ∧ decode (.cmd 0x80000002#32) = none ∧
  decode (.phase 0b0010#4) = some .load ∧ decode (.phase 0b0101#4) = some .round ∧
  decode (.phase 0b1000#4) = some .finish ∧ decode (.phase 0b1001#4) = none ∧
  decodeWrite 64 0 2 = .ok (.command .sha256d) ∧ decodeWrite 64 1 0 = .error .reservedEncoding ∧
  decodeRead 0 = .error .reservedEncoding ∧ decodeRead 5 = .error .reservedEncoding ∧
  decodeRead 15 = .ok (.digestWord 7) ∧ decodeRead 16 = .error .reservedEncoding ∧
  decodeWrite 64 3 0x1FFFFFFFFFFFFFFF = .ok (.action (.setSrcLen 0x1FFFFFFFFFFFFFFF#61)) ∧
  decodeWrite 64 3 0x2000000000000000 = .error .lengthTooLarge

/-- R82, R84: over all codes of both formats, the codes that decode are exactly the encodings, so every instruction's code
reads back as it and every other code (every other command word, PHASE codes 9 to 15) is rejected. -/
def Obligations.DecodeAndEncodeAgree : Prop :=
  ∀ (c : Code) (i : Instr), decode c = some i ↔ c = encode i

/-- R80, R27, R83: for every address width, the host moves of format REG that decode are exactly the well-formed ones, and
every value of a descriptor register is written as it stands. That a value too wide for SRC_ADDR is rejected is the model's
choice (log 11). -/
def Obligations.RegisterMovesDecodeExactlyWhenWellFormed : Prop :=
  (∀ addrW n v, (∃ x, decodeWrite addrW n v = .ok x) ↔ (HostMove.wr n v).wellFormed addrW = true) ∧
  (∀ addrW n, (∃ x, decodeRead n = .ok x) ↔ (HostMove.rd n).wellFormed addrW = true) ∧
  (∀ (addrW : Nat) (a : Addr), a < 2 ^ addrW → decodeWrite addrW 2 a = .ok (.action (.setSrcAddr a))) ∧
  (∀ (addrW : Nat) (l : Len), decodeWrite addrW 3 l.toNat = .ok (.action (.setSrcLen l))) ∧
  (∀ (r : ReadReg) (n : Nat), decodeRead n = .ok r ↔ encodeRead r = .rd n)

/-! ### Word and byte operations -/

/-- R9: bit `i` of `ROTR(x, n)` is bit `(i + n) mod 32` of `x`, bit `i` of `SHR(x, n)` is bit `i + n` of `x`, and zeros
enter at the top. -/
def Obligations.RotateAndShiftBits : Prop :=
  ∀ (x : Word) (n i : Nat), 0 < n → n < 32 → i < 32 →
    (rotr x n).getLsbD i = x.getLsbD ((i + n) % 32) ∧
    (shr x n).getLsbD i = (if i + n < 32 then x.getLsbD (i + n) else false)

/-- R10: `BE32` weighs its bytes by 2^24, 2^16, 2^8 and 1, `BYTES32` is its inverse, in both directions, and `BYTES64` gives
the eight bytes of a 64-bit value, most significant first. -/
def Obligations.BigEndianInverse : Prop :=
  (∀ b0 b1 b2 b3 : Byte,
    (be32 b0 b1 b2 b3).toNat = b0.toNat * 2 ^ 24 + b1.toNat * 2 ^ 16 + b2.toNat * 2 ^ 8 + b3.toNat) ∧
  (∀ w : Word, be32 (byte32 w 0) (byte32 w 1) (byte32 w 2) (byte32 w 3) = w) ∧
  (∀ b0 b1 b2 b3 : Byte, byte32 (be32 b0 b1 b2 b3) 0 = b0 ∧ byte32 (be32 b0 b1 b2 b3) 1 = b1 ∧
    byte32 (be32 b0 b1 b2 b3) 2 = b2 ∧ byte32 (be32 b0 b1 b2 b3) 3 = b3) ∧
  (∀ (v : BitVec 64) (i : Nat), i < 8 → (byte64 v i).toNat = v.toNat / 2 ^ (8 * (7 - i)) % 256)

/-- R150: `ser` puts byte `i` of word `j` at offset `4j + i`, most significant byte first, and is a bijection between states
of eight words and 32-byte strings. -/
def Obligations.SerialisationIsBigEndianAndBijective : Prop :=
  (∀ (x : Words8) (j : Fin 8) (i : Nat), i < 4 →
    (byteAt (ser x) (4 * j.val + i)).toNat = (x.get j).toNat / 2 ^ (8 * (3 - i)) % 256) ∧
  (∀ x y : Words8, ser x = ser y → x = y) ∧ (∀ d : Vector Byte 32, ∃ x : Words8, ser x = d)

/-- R25: the word view of a digest that FINISH serialised from `H` is `H` itself. -/
def Obligations.DigestWordsAreTheHashWords : Prop :=
  ∀ (x : Words8) (j : Fin 8), digestWord (ser x) j = x.get j

/-- R134, R135: bit by bit, `Ch` takes `y` where `x` is 1 and `z` where `x` is 0, and `Maj` is the value at least two of
the three have. -/
def Obligations.ChoiceAndMajorityBits : Prop :=
  ∀ (x y z : Word) (i : Nat),
    (ch x y z).getLsbD i = (if x.getLsbD i then y.getLsbD i else z.getLsbD i) ∧
    (maj x y z).getLsbD i =
      decide (2 ≤ (x.getLsbD i).toNat + (y.getLsbD i).toNat + (z.getLsbD i).toNat)

/-- R28, R29: `IV[j]` is the first 32 bits of the fractional part of the square root of the `j`-th prime, `K[t]` of the
cube root of the `t`-th prime. -/
def Obligations.RomsHoldTheRootFractions : Prop :=
  (∀ j : Fin 8, ∃ q, q < 8 ∧
    (q * 2 ^ 32 + (iv.get j).toNat) ^ 2 ≤ [2, 3, 5, 7, 11, 13, 17, 19].getD j.val 0 * 2 ^ 64 ∧
    [2, 3, 5, 7, 11, 13, 17, 19].getD j.val 0 * 2 ^ 64 < (q * 2 ^ 32 + (iv.get j).toNat + 1) ^ 2) ∧
  (∀ c ∈ kRom.zip
      ([2, 3, 5, 7, 11, 13, 17, 19, 23, 29, 31, 37, 41, 43, 47, 53, 59, 61, 67, 71, 73, 79, 83, 89, 97, 101, 103, 107, 109,
        113, 127, 131] ++
      [137, 139, 149, 151, 157, 163, 167, 173, 179, 181, 191, 193, 197, 199, 211, 223, 227, 229, 233, 239, 241, 251, 257,
        263, 269, 271, 277, 281, 283, 293, 307, 311]),
    ∃ q, q < 8 ∧ (q * 2 ^ 32 + c.1.toNat) ^ 3 ≤ c.2 * 2 ^ 96 ∧ c.2 * 2 ^ 96 < (q * 2 ^ 32 + c.1.toNat + 1) ^ 3) ∧
  kRom.length = 64

/-! ### Padding -/

/-- R101: `NBLK` is the least `n` with `64 * n >= L + 9`, and at most `2^55 + 1` for a 61-bit length. -/
def Obligations.BlockCountIsLeast : Prop :=
  (∀ len n : Nat, len + 9 ≤ 64 * n ↔ nblkOf len ≤ n) ∧ (∀ s : State, s.nblk ≤ 2 ^ 55 + 1)

/-- R190, R102: `pad(m)` has `64 * NBLK(L)` bytes and its byte `j` is `PB(j)`. The spec says so for messages shorter than 2^61
bytes; that the model's functions agree on longer ones too, both taking `8 * L` modulo 2^64, is the model's choice (log 22). -/
def Obligations.PaddedBytesAreThePaddingFunction : Prop :=
  ∀ m : List Byte, (pad m).length = 64 * nblkOf m.length ∧
    ∀ j, j < 64 * nblkOf m.length → (pad m)[j]? = some (padByte m.length (fun k => m.getD k 0) j)

/-- R190: `pad` is injective on messages shorter than 2^61 bytes. -/
def Obligations.PaddingIsInjective : Prop :=
  ∀ m m' : List Byte, m.length < 2 ^ 61 → m'.length < 2 ^ 61 → pad m = pad m' → m = m'

/-! ### Each instruction: its result, its completion and its frame -/

/-- R173: under conditions 2 to 4 of R172 `SHA256` starts, writing MODE, PASS, BUSY, VALID and PHASE and nothing else.
Which memory counts as readable is the model's choice (log 8). -/
def Obligations.Sha256Starts : Prop :=
  ∀ s : State, s.CanStart →
    exec .sha256 s = .next { s with mode := false, pass := false, busy := true, valid := false, phase := 1#4 }

/-- R174: under conditions 2 to 4 of R172 `SHA256D` starts, writing MODE, PASS, BUSY, VALID and PHASE and nothing
else. Which memory counts as readable is the model's choice (log 8). -/
def Obligations.Sha256dStarts : Prop :=
  ∀ s : State, s.CanStart →
    exec .sha256d s = .next { s with mode := true, pass := false, busy := true, valid := false, phase := 1#4 }

/-- R172 conditions 2 to 4: a command start that breaks one of them is refused with that condition's reason. That the
conditions are tried in the table's order, and that a byte no one has listed is unreadable memory, is the model's choice
(log 9, log 8). -/
def Obligations.IllegalStartsAreRefused : Prop :=
  ∀ (s : State) (i : Instr), i = .sha256 ∨ i = .sha256d →
    (s.busy = true → exec i s = .refused .commandWhileBusy) ∧
    (s.busy = false → ¬(s.addrWritten = true ∧ s.lenWritten = true) → exec i s = .refused .unwrittenDescriptor) ∧
    (s.busy = false → s.addrWritten = true → s.lenWritten = true → s.mem.wf = true →
      (2 ^ s.addrW < s.srcAddr + s.srcLen.toNat ∨ ¬s.messageReadable) → exec i s = .refused .badDescriptor)

/-- R170: the idle sequencer changes nothing; a machine that is idle with no outside move pending stays exactly as it is.
That there is an idle step at all is the model's form (log 19). -/
def Obligations.IdleChangesNothing : Prop :=
  (∀ s : State, exec .idle s = .next s) ∧ (∀ s : State, s.phase = 0#4 → s.agenda = [] → step s = .next s)

/-- R105, R28: `INIT` writes `H <- IV`, `BLK <- 0`, `PHASE <- LOAD` and nothing else. -/
def Obligations.InitLoadsTheInitialValues : Prop :=
  ∀ s : State, exec .init s = .next { s with
    h := ⟨0x6a09e667, 0xbb67ae85, 0x3c6ef372, 0xa54ff53a, 0x510e527f, 0x9b05688c, 0x1f83d9ab, 0x5be0cd19⟩
    blk := 0
    phase := 2#4 }

/-- R106: `LOAD` of a block whose message bytes can be read writes the sixteen big-endian words of `PB`, `T <- 16`,
`PHASE <- EXPAND`, and nothing else; `W[16..63]` keep their values, and in the last block `W[14] ‖ W[15]` is the 64-bit value
`8 * L`. -/
def Obligations.LoadParsesTheBlock : Prop :=
  ∀ s : State, s.blk.toNat < s.nblk →
    (s.pass = false → ∀ o, o < 64 → 64 * s.blk.toNat + o < s.srcLen.toNat →
      (s.memRead (s.srcAddr + (64 * s.blk.toNat + o))).isSome) →
    ∃ t, exec .load s = .next t ∧ t = { s with w := t.w, t := 16, phase := 3#4 } ∧
      (∀ k, k < 16 → wordAt t.w k =
        be32 (padByte s.messageLen s.messageByte (64 * s.blk.toNat + 4 * k))
          (padByte s.messageLen s.messageByte (64 * s.blk.toNat + 4 * k + 1))
          (padByte s.messageLen s.messageByte (64 * s.blk.toNat + 4 * k + 2))
          (padByte s.messageLen s.messageByte (64 * s.blk.toNat + 4 * k + 3))) ∧
      (∀ k, 16 ≤ k → k < 64 → wordAt t.w k = wordAt s.w k) ∧
      (s.blk.toNat + 1 = s.nblk → (wordAt t.w 14).toNat * 2 ^ 32 + (wordAt t.w 15).toNat = 8 * s.messageLen)

/-- R100, R103, R106 against R191: in pass 1 `LOAD` of block `BLK` reads block `BLK` of `pad` of the described message. -/
def Obligations.LoadReadsTheDescribedMessage : Prop :=
  ∀ (s : State) (m : List Byte), s.pass = false → s.Describes m → s.blk.toNat < nblkOf m.length →
    ∃ t, exec .load s = .next t ∧ ∀ k, k < 16 → wordAt t.w k = (blockWords (blockAt (pad m) s.blk.toNat)).getD k 0

/-- R162: in pass 2 `LOAD` lays out the bytes of `MID` as eight words, then the words 0x80000000, six zeros, 0x00000100,
reading no memory. -/
def Obligations.SecondPassLoadsTheIntermediateDigest : Prop :=
  ∀ s : State, s.pass = true → s.blk = 0 →
    ∃ t, exec .load s = .next t ∧
      (∀ j, j < 8 → wordAt t.w j =
        be32 (byteAt s.mid (4 * j)) (byteAt s.mid (4 * j + 1)) (byteAt s.mid (4 * j + 2)) (byteAt s.mid (4 * j + 3))) ∧
      wordAt t.w 8 = 0x80000000#32 ∧ (∀ j, 9 ≤ j → j < 15 → wordAt t.w j = 0#32) ∧ wordAt t.w 15 = 0x00000100#32

/-- R123, R121, R122: `EXPAND` writes `W[T]` by the recurrence, advances `T`, goes to SETUP exactly when `T = 63`, and
changes nothing else, no other schedule word either. -/
def Obligations.ExpandComputesTheRecurrence : Prop :=
  ∀ s : State, 16 ≤ s.t.toNat → s.t.toNat ≤ 63 →
    ∃ t, exec .expand s = .next t ∧
      t = { s with w := t.w, t := s.t + 1, phase := if s.t.toNat = 63 then 4#4 else 3#4 } ∧
      (∀ k, k < 64 → k ≠ s.t.toNat → wordAt t.w k = wordAt s.w k) ∧
      (∀ x y z u : Word, wordAt s.w (s.t.toNat - 2) = x → wordAt s.w (s.t.toNat - 7) = y →
        wordAt s.w (s.t.toNat - 15) = z → wordAt s.w (s.t.toNat - 16) = u →
        wordAt t.w s.t.toNat =
          (x.rotateRight 17 ^^^ x.rotateRight 19 ^^^ x >>> 10) + y +
            (z.rotateRight 7 ^^^ z.rotateRight 18 ^^^ z >>> 3) + u)

/-- R130: `SETUP` writes `V <- H`, `T <- 0`, `PHASE <- ROUND` and nothing else. -/
def Obligations.SetupCopiesTheHash : Prop :=
  ∀ s : State, exec .setup s = .next { s with v := s.h, t := 0, phase := 5#4 }

/-- R136, R132 to R135: `ROUND` makes the eight simultaneous assignments with `T1` and `T2`, advances `T`, goes to CHAIN
exactly when `T = 63`, and changes nothing else. -/
def Obligations.RoundUpdatesTheWorkingVariables : Prop :=
  ∀ (s : State) (a b c d e f g h : Word), s.t.toNat ≤ 63 → s.v = ⟨a, b, c, d, e, f, g, h⟩ →
    ∀ t1 t2 : Word,
      t1 = h + (e.rotateRight 6 ^^^ e.rotateRight 11 ^^^ e.rotateRight 25) + ((e &&& f) ^^^ (~~~e &&& g)) +
        kAt s.t.toNat + wordAt s.w s.t.toNat →
      t2 = (a.rotateRight 2 ^^^ a.rotateRight 13 ^^^ a.rotateRight 22) + ((a &&& b) ^^^ (a &&& c) ^^^ (b &&& c)) →
      exec .round s = .next { s with
        v := ⟨t1 + t2, a, b, c, d + t1, e, f, g⟩
        t := s.t + 1
        phase := if s.t.toNat = 63 then 6#4 else 5#4 }

/-- R137: `CHAIN` adds `V` to `H` word by word; with more blocks it goes on to LOAD with `BLK + 1`, else after pass 1 of
SHA256D to XFER, else to FINISH; nothing else changes and `BLK + 1` does not wrap. -/
def Obligations.ChainAddsAndDecides : Prop :=
  ∀ s : State, ∃ t, exec .chain s = .next t ∧
    (∀ j, t.h.get j = s.h.get j + s.v.get j) ∧
    t = { s with h := t.h, blk := t.blk, phase := t.phase } ∧
    (s.blk.toNat + 1 < s.nblk → t.blk.toNat = s.blk.toNat + 1 ∧ t.phase = 2#4) ∧
    (s.nblk ≤ s.blk.toNat + 1 → t.blk = s.blk ∧
      t.phase = (if s.mode = true ∧ s.pass = false then 7#4 else 8#4))

/-- R161: `XFER` stores the 32 big-endian bytes of `H` in `MID`, sets `PASS`, goes to INIT, and changes nothing else: STATUS
and DIGEST stay as they are. -/
def Obligations.XferMaterialisesTheIntermediateDigest : Prop :=
  ∀ s : State, ∃ t, exec .xfer s = .next t ∧
    t = { s with mid := t.mid, pass := true, phase := 1#4 } ∧
    (∀ (j : Fin 8) (i : Nat), i < 4 →
      (byteAt t.mid (4 * j.val + i)).toNat = (s.h.get j).toNat / 2 ^ (8 * (3 - i)) % 256)

/-- R151, R150: `FINISH` stores the 32 big-endian bytes of `H` in `DIGEST`, sets VALID, clears BUSY and goes to IDLE in one
step, and changes nothing else. -/
def Obligations.FinishDeliversTheDigest : Prop :=
  ∀ s : State, ∃ t, exec .finish s = .next t ∧
    t = { s with digest := t.digest, valid := true, busy := false, phase := 0#4 } ∧
    (∀ (j : Fin 8) (i : Nat), i < 4 →
      (byteAt t.digest (4 * j.val + i)).toNat = (s.h.get j).toNat / 2 ^ (8 * (3 - i)) % 256)

/-- Where the micro-operations stop: with operands outside the ranges of R84 and R102, which no run reaches. The refusal
is the model's choice (log 10). -/
def Obligations.PositionsOutsideTheirRangeAreRefused : Prop :=
  ∀ s : State,
    (s.t.toNat < 16 ∨ 63 < s.t.toNat → exec .expand s = .refused .positionOutOfRange) ∧
    (63 < s.t.toNat → exec .round s = .refused .positionOutOfRange) ∧
    (s.nblk ≤ s.blk.toNat → exec .load s = .refused .positionOutOfRange) ∧
    (8 < s.phase.toNat → s.agenda = [] → step s = .refused .unusedPhase)

/-! ### What a step runs -/

/-- R34, R214: when it is the sequencer's turn, a step is `exec` of the micro-operation whose code PHASE holds. That an
empty list of outside moves, a `pass` or a failing poll gives the sequencer the turn is the model's choice (log 1, log 3). -/
def Obligations.StepRunsTheDecodedMicroOperation : Prop :=
  ∀ (s : State) (i : Instr), decode (.phase s.phase) = some i →
    (s.agenda = [] → step s = exec i s) ∧
    (∀ rest, s.agenda = .pass :: rest → step s = exec i { s with agenda := rest }) ∧
    (∀ rest, s.agenda = .waitValid :: rest → s.valid = false → step s = exec i s)

/-- R81, R82, R83: when the host's next move writes a command word to register 0, a step is `exec` of the command it
decodes to, on the state without that move; any other value is refused. That a value of 2^32 or more is refused too is the
model's choice (log 11). -/
def Obligations.StepRunsTheDecodedCommand : Prop :=
  ∀ (s : State) (v : Nat) (rest : List HostMove), s.agenda = .wr 0 v :: rest →
    (∀ (w : BitVec 32) (i : Instr), v = w.toNat → decode (.cmd w) = some i →
      step s = exec i { s with agenda := rest }) ∧
    (v ≠ 1 → v ≠ 2 → step s = .refused .reservedEncoding)

/-! ### Host moves -/

/-- R171: a descriptor write sets its register while BUSY = 0 and changes nothing else of the block, VALID and DIGEST among
it; while BUSY = 1 it is refused; a length of 2^61 or more is refused as too large. -/
def Obligations.DescriptorWrites : Prop :=
  ∀ (s : State) (a : Addr) (l : Len) (v : Nat) (rest : List HostMove),
    (s.agenda = .wr 2 a :: rest → a < 2 ^ s.addrW →
      (s.busy = false → step s = .next { s with srcAddr := a, addrWritten := true, agenda := rest }) ∧
      (s.busy = true → step s = .refused .writeWhileBusy)) ∧
    (s.agenda = .wr 3 l.toNat :: rest →
      (s.busy = false → step s = .next { s with srcLen := l, lenWritten := true, agenda := rest }) ∧
      (s.busy = true → step s = .refused .writeWhileBusy)) ∧
    (s.agenda = .wr 3 v :: rest → s.busy = false → 2 ^ 61 ≤ v → step s = .refused .lengthTooLarge)

/-- Where the model stops on a number of 2^ADDR_W or more: as a value for SRC_ADDR it is no value of the register, as the
address of a store or an unmapping it is no address of message memory (R26, R60). The refusal is the model's choice (log 11). -/
def Obligations.NumbersBeyondTheAddressSpaceAreRefused : Prop :=
  ∀ (s : State) (v : Nat) (b : Byte) (rest : List HostMove), 2 ^ s.addrW ≤ v →
    s.agenda = .wr 2 v :: rest ∨ s.agenda = .memStore v b :: rest ∨ s.agenda = .memUnmap v :: rest →
    step s = .refused .addressTooLarge

/-- R83: a command word other than the two, a write or a read whose register number is reserved, and an access in the wrong
direction are refused as reserved. -/
def Obligations.ReservedAccessesAreRefused : Prop :=
  ∀ (s : State) (w : BitVec 32) (n v : Nat) (rest : List HostMove),
    (s.agenda = .wr 0 w.toNat :: rest → w ≠ 1#32 → w ≠ 2#32 → step s = .refused .reservedEncoding) ∧
    (s.agenda = .wr n v :: rest → n ≠ 0 → n ≠ 2 → n ≠ 3 → step s = .refused .reservedEncoding) ∧
    (s.agenda = .rd n :: rest → n = 0 ∨ (4 ≤ n ∧ n < 8) ∨ 16 ≤ n → step s = .refused .reservedEncoding)

/-- R175, R31: a read of STATUS returns BUSY in bit 0, VALID in bit 1 and zeros, at any time, and changes nothing of the
block. -/
def Obligations.StatusReads : Prop :=
  ∀ (s : State) (rest : List HostMove), s.agenda = .rd 1 :: rest →
    ∃ w : Word, step s = .next { s with answers := .status w :: s.answers, agenda := rest } ∧
      w.toNat = s.busy.toNat + 2 * s.valid.toNat

/-- R177, R25: a read of DIGEST returns its 32 bytes, a read of register `8 + j` the big-endian word of bytes `4j` to
`4j + 3`, while VALID = 1; while VALID = 0 both are refused. Nothing of the block changes. -/
def Obligations.DigestReads : Prop :=
  ∀ (s : State) (j : Fin 8) (rest : List HostMove),
    (s.agenda = .rdDigest :: rest →
      (s.valid = true → step s = .next { s with answers := .digest s.digest :: s.answers, agenda := rest }) ∧
      (s.valid = false → step s = .refused .digestNotValid)) ∧
    (s.agenda = .rd (8 + j.val) :: rest →
      (s.valid = true → ∃ w : Word,
        step s = .next { s with answers := .digestWord j w :: s.answers, agenda := rest } ∧
        w.toNat = (byteAt s.digest (4 * j.val)).toNat * 2 ^ 24 + (byteAt s.digest (4 * j.val + 1)).toNat * 2 ^ 16 +
          (byteAt s.digest (4 * j.val + 2)).toNat * 2 ^ 8 + (byteAt s.digest (4 * j.val + 3)).toNat) ∧
      (s.valid = false → step s = .refused .digestNotValid))

/-- R178, R37: a read of SRC_ADDR or SRC_LEN returns the register once it was written, and is refused before; nothing of the
block changes. -/
def Obligations.DescriptorReads : Prop :=
  ∀ (s : State) (rest : List HostMove),
    (s.agenda = .rd 2 :: rest →
      (s.addrWritten = true → step s = .next { s with answers := .srcAddr s.srcAddr :: s.answers, agenda := rest }) ∧
      (s.addrWritten = false → step s = .refused .unwrittenDescriptor)) ∧
    (s.agenda = .rd 3 :: rest →
      (s.lenWritten = true → step s = .next { s with answers := .srcLen s.srcLen :: s.answers, agenda := rest }) ∧
      (s.lenWritten = false → step s = .refused .unwrittenDescriptor))

/-- R68: a store to a byte of the message range while BUSY = 1 is refused. That any other store to an address of message
memory completes, also outside the range while BUSY = 1, is the model's choice (log 12), and so is that the byte then reads
back where the address was not readable before (log 8); every other address reads as before, and nothing of the block
changes. -/
def Obligations.MessageIsBorrowedWhileBusy : Prop :=
  ∀ (s : State) (a : Addr) (b : Byte) (rest : List HostMove), s.agenda = .memStore a b :: rest → a < 2 ^ s.addrW →
    ((s.busy = true ∧ s.srcAddr ≤ a ∧ a < s.srcAddr + s.srcLen.toNat → step s = .refused .messageModified) ∧
    (¬(s.busy = true ∧ s.srcAddr ≤ a ∧ a < s.srcAddr + s.srcLen.toNat) →
      ∃ t, step s = .next t ∧ t = { s with mem := t.mem, agenda := rest } ∧
        ∀ x, t.memRead x = if x = a then some b else s.memRead x))

/-- R230, R232: the reset input, at any time, leaves PHASE = IDLE, BUSY = 0, VALID = 0 and nothing written; then the digest
and the descriptor cannot be read. Memory and the host's own side stay. That the unspecified elements come back as the model
names them is its choice (log 4, log 16). -/
def Obligations.ResetAbandonsTheCommand : Prop :=
  ∀ (s : State) (rest : List HostMove), s.agenda = .reset :: rest →
    step s = .next { State.reset with addrW := s.addrW, mem := s.mem, agenda := rest, answers := s.answers } ∧
    State.reset.phase = 0#4 ∧ State.reset.busy = false ∧ State.reset.valid = false ∧
    State.reset.addrWritten = false ∧ State.reset.lenWritten = false

/-- R40, R230: the state after reset is idle with BUSY = 0 and VALID = 0; a read of STATUS returns 0, and a read of DIGEST,
SRC_ADDR or SRC_LEN or a command start is refused. -/
def Obligations.ResetStateIsIdle : Prop :=
  State.reset.phase = 0#4 ∧ State.reset.busy = false ∧ State.reset.valid = false ∧ State.reset.statusWord = 0#32 ∧
  readDigest State.reset = .refused .digestNotValid ∧ readReg .srcAddr State.reset = .refused .unwrittenDescriptor ∧
  readReg .srcLen State.reset = .refused .unwrittenDescriptor ∧
  exec .sha256 State.reset = .refused .unwrittenDescriptor ∧ exec .sha256d State.reset = .refused .unwrittenDescriptor

/-! ### The whole machine -/

/-- R231: the well-formedness predicate holds after reset. -/
def Obligations.ResetStateIsWellFormed : Prop := State.reset.Inv

/-- R231: every step that answers a next state keeps the well-formedness predicate, whatever the host does. -/
def Obligations.StepKeepsWellFormedness : Prop :=
  ∀ s t : State, s.Inv → step s = .next t → t.Inv

/-- R210, R215: in a well-formed state every step of the sequencer has a next state; only outside moves can be refused. -/
def Obligations.SequencerNeverStops : Prop :=
  ∀ s : State, s.Inv →
    (s.agenda = [] ∨ (∃ rest, s.agenda = .pass :: rest) ∨ (∃ rest, s.agenda = .waitValid :: rest)) →
    ∃ t, step s = .next t

/-- R175, R31: in a well-formed state STATUS reads as 0, 1 or 2, never 3, and as 1 exactly when PHASE is not IDLE. -/
def Obligations.StatusNeverReadsBoth : Prop :=
  ∀ s : State, s.Inv →
    (s.statusWord = 0#32 ∨ s.statusWord = 1#32 ∨ s.statusWord = 2#32) ∧ (s.statusWord = 1#32 ↔ s.phase ≠ 0#4)

/-- R61: no instruction changes message memory, and a step that changes it is an outside store or unmapping. -/
def Obligations.BlockNeverWritesMemory : Prop :=
  (∀ (i : Instr) (s t : State), exec i s = .next t → t.mem = s.mem) ∧
  (∀ s t : State, step s = .next t → t.mem ≠ s.mem →
    ∃ (a : Addr) (rest : List HostMove), (∃ b, s.agenda = .memStore a b :: rest) ∨ s.agenda = .memUnmap a :: rest)

/-- R25, R24, R26, R31: of the instructions only FINISH changes DIGEST or sets VALID, only XFER changes MID, and none
changes SRC_ADDR, SRC_LEN or the host's side. -/
def Obligations.RegistersHaveOneWriter : Prop :=
  ∀ (i : Instr) (s t : State), exec i s = .next t →
    (i ≠ .finish → t.digest = s.digest ∧ (t.valid = true → s.valid = true)) ∧
    (i ≠ .xfer → t.mid = s.mid) ∧
    t.srcAddr = s.srcAddr ∧ t.srcLen = s.srcLen ∧ t.addrWritten = s.addrWritten ∧ t.lenWritten = s.lenWritten ∧
    t.agenda = s.agenda ∧ t.answers = s.answers

/-- R31, R151: a step after which VALID is 1 though it was 0 was the FINISH micro-operation. -/
def Obligations.OnlyFinishSetsValid : Prop :=
  ∀ s t : State, step s = .next t → s.valid = false → t.valid = true → s.phase = 8#4

/-- R6: ADDR_W is a parameter: no step changes it. -/
def Obligations.AddressWidthIsFixed : Prop :=
  ∀ s t : State, step s = .next t → t.addrW = s.addrW

/-- R34: in a well-formed state a step that changes PHASE follows the table of R34, the command start among it; the one
other way is the reset input. -/
def Obligations.PhasesFollowTheTransitionTable : Prop :=
  ∀ s t : State, s.Inv → step s = .next t → t.phase ≠ s.phase →
    (s.phase.toNat, t.phase.toNat) ∈
      [(0, 1), (1, 2), (2, 3), (3, 4), (4, 5), (5, 6), (6, 2), (6, 7), (6, 8), (7, 1), (8, 0)] ∨
    (∃ rest, s.agenda = .reset :: rest)

/-- R241: the sequencer's position after a step is a function of the position, MODE and SRC_LEN, never of the message or
the data registers. -/
def Obligations.ControlFlowIgnoresData : Prop :=
  ∀ (i : Instr) (s s' t t' : State),
    s.phase = s'.phase → s.pass = s'.pass → s.mode = s'.mode → s.blk = s'.blk → s.t = s'.t → s.srcLen = s'.srcLen →
    exec i s = .next t → exec i s' = .next t' →
    t.phase = t'.phase ∧ t.pass = t'.pass ∧ t.mode = t'.mode ∧ t.blk = t'.blk ∧ t.t = t'.t

/-- R60, R65: an instruction depends on message memory only through the bytes of the described range. -/
def Obligations.OnlyMessageBytesMatter : Prop :=
  ∀ (i : Instr) (s : State) (m : Memory), s.mem.wf = true → m.wf = true →
    (∀ j, j < s.srcLen.toNat → m.read (s.srcAddr + j) = s.mem.read (s.srcAddr + j)) →
    (∀ t, exec i s = .next t → exec i { s with mem := m } = .next { t with mem := m }) ∧
    (∀ r, exec i s = .refused r → exec i { s with mem := m } = .refused r)

/-- R214, R175: a read of STATUS just before or just after a step of the running sequencer leaves the same block. -/
def Obligations.StatusReadsDoNotDisturb : Prop :=
  ∀ (s t : State) (rest : List HostMove),
    step { s with agenda := .pass :: .rd 1 :: rest } = .next t →
    ∃ u v x, step { s with agenda := .rd 1 :: .pass :: rest } = .next u ∧ step u = .next v ∧ step t = .next x ∧
      v = { x with answers := v.answers }

/-! ### The machine computes the functions -/

/-- R138: with the current message `m` readable, the 115 steps LOAD, EXPAND x 48, SETUP, ROUND x 64, CHAIN make
`H <- compress(H, B)` for block `B` number BLK of `pad(m)`, and leave the flags, MODE, PASS, MID, DIGEST, the descriptor and
memory as they are. -/
def Obligations.BlockSpanCompresses : Prop :=
  ∀ (s : State) (m : List Byte), s.phase = 2#4 → s.agenda = [] → s.pass = false → s.Describes m →
    s.blk.toNat < nblkOf m.length →
    ∃ t, Sys2Proof.core.run 115 s = .next t ∧
      t.h = compress s.h (blockAt (pad m) s.blk.toNat) ∧
      t = { s with h := t.h, v := t.v, w := t.w, t := t.t, blk := t.blk, phase := t.phase }

/-- R197, R173, R176: from any state in which `SHA256` may start, whatever the internal elements hold, the CMD write and
`2 + 115 * NBLK` sequencer steps end with PHASE = IDLE, VALID = 1, BUSY = 0 and DIGEST = sha256(m), memory and descriptor as
they were. -/
def Obligations.Sha256CommandComputesTheDigest : Prop :=
  ∀ (s : State) (m : List Byte), s.CanStart → s.Describes m →
    ∃ t, Sys2Proof.core.run (1 + (2 + 115 * nblkOf m.length)) { s with agenda := [.wr 0 1] } = .next t ∧
      t.phase = 0#4 ∧ t.valid = true ∧ t.busy = false ∧ t.digest.toList = sha256 m ∧
      t.mem = s.mem ∧ t.srcAddr = s.srcAddr ∧ t.srcLen = s.srcLen ∧ t.agenda = [] ∧ t.answers = s.answers

/-- R197, R174, R176: the same for `SHA256D`, with `119 + 115 * NBLK` steps and DIGEST = sha256(sha256(m)). -/
def Obligations.Sha256dCommandComputesTheDoubleDigest : Prop :=
  ∀ (s : State) (m : List Byte), s.CanStart → s.Describes m →
    ∃ t, Sys2Proof.core.run (1 + (119 + 115 * nblkOf m.length)) { s with agenda := [.wr 0 2] } = .next t ∧
      t.phase = 0#4 ∧ t.valid = true ∧ t.busy = false ∧ t.digest.toList = sha256d m ∧
      t.mem = s.mem ∧ t.srcAddr = s.srcAddr ∧ t.srcLen = s.srcLen ∧ t.agenda = [] ∧ t.answers = s.answers

/-- R176, R174, R161: from the CMD write until the last step, BUSY stays 1 and VALID stays 0, across the pass boundary of
`SHA256D` too. -/
def Obligations.BusyUntilTheLastStep : Prop :=
  ∀ (s : State) (m : List Byte) (k : Nat), s.CanStart → s.Describes m →
    (k < 2 + 115 * nblkOf m.length →
      ∃ t, Sys2Proof.core.run (1 + k) { s with agenda := [.wr 0 1] } = .next t ∧ t.busy = true ∧ t.valid = false) ∧
    (k < 119 + 115 * nblkOf m.length →
      ∃ t, Sys2Proof.core.run (1 + k) { s with agenda := [.wr 0 2] } = .next t ∧ t.busy = true ∧ t.valid = false)

/-- R88: the source's call `sha256(m)` in the host's moves: write the descriptor, write the command, wait for VALID, read
DIGEST. From any state that is not busy, the host ends up holding sha256(m). That WAIT VALID is one polling move, and that the
sequencer moves at each failing poll, is the model's choice (log 1, log 3). -/
def Obligations.HostCallReturnsTheDigest : Prop :=
  ∀ (s : State) (a : Addr) (m : List Byte), s.busy = false → s.mem.wf = true → m.length < 2 ^ 61 →
    a + m.length ≤ 2 ^ s.addrW → a < 2 ^ s.addrW → (∀ j, j < m.length → s.memRead (a + j) = some (m.getD j 0)) →
    ∃ (t : State) (d : Vector Byte 32),
      Sys2Proof.core.run (3 + (2 + 115 * nblkOf m.length) + 2)
        { s with agenda := [.wr 2 a, .wr 3 m.length, .wr 0 1, .waitValid, .rdDigest] } = .next t ∧
      t.answers = .digest d :: .status 2#32 :: s.answers ∧ d.toList = sha256 m ∧ t.agenda = []

/-- R36, R196: no hidden state: two machines whose descriptors describe the same bytes, and that agree in nothing else, hold
the same DIGEST after the same command. -/
def Obligations.ResultDependsOnTheMessageOnly : Prop :=
  ∀ (s s' : State) (m : List Byte), s.CanStart → s'.CanStart → s.Describes m → s'.Describes m →
    ∃ t t' u u',
      Sys2Proof.core.run (1 + (2 + 115 * nblkOf m.length)) { s with agenda := [.wr 0 1] } = .next t ∧
      Sys2Proof.core.run (1 + (2 + 115 * nblkOf m.length)) { s' with agenda := [.wr 0 1] } = .next t' ∧
      t.digest = t'.digest ∧ t.valid = t'.valid ∧
      Sys2Proof.core.run (1 + (119 + 115 * nblkOf m.length)) { s with agenda := [.wr 0 2] } = .next u ∧
      Sys2Proof.core.run (1 + (119 + 115 * nblkOf m.length)) { s' with agenda := [.wr 0 2] } = .next u' ∧
      u.digest = u'.digest ∧ u.valid = u'.valid

/-- R195: `SHA256` on a message delivers a digest `d`; `SHA256` on a 32-byte buffer that holds those bytes, in any machine
that may start, and `SHA256D` on the message itself deliver the same DIGEST. -/
def Obligations.CompositionLaw : Prop :=
  ∀ (s s' : State) (m : List Byte), s.CanStart → s.Describes m → s'.CanStart → s'.Describes (sha256 m) →
    ∃ t u v,
      Sys2Proof.core.run (1 + (2 + 115 * nblkOf m.length)) { s with agenda := [.wr 0 1] } = .next t ∧
      t.digest.toList = sha256 m ∧
      Sys2Proof.core.run (1 + (119 + 115 * nblkOf m.length)) { s with agenda := [.wr 0 2] } = .next u ∧
      Sys2Proof.core.run (1 + (2 + 115)) { s' with agenda := [.wr 0 1] } = .next v ∧ u.digest = v.digest
end

