-- ==== Sys2Proof/Laws/Memory.lean ====
section
/-! SUPPORT. The laws of message memory: reading after a store or an unmapping, the canonical form kept by both, and what
the range check says. -/

namespace Sys2Proof.Machine

@[simp] theorem Memory.read_nil (a : Nat) : Memory.read [] a = none := rfl

theorem Memory.read_cons (k a : Nat) (b : Byte) (m : Memory) :
    Memory.read ((k, b) :: m) a = if k = a then some b else Memory.read m a := rfl

theorem Memory.wf_cons (a : Nat) (b : Byte) (m : Memory) :
    Memory.wf ((a, b) :: m) = true ↔ (∀ c ∈ m, a < c.1) ∧ Memory.wf m = true := by
  simp [Memory.wf]

/-- Nothing listed lies below the bound of all listed addresses. -/
theorem Memory.read_eq_none_of_lt (m : Memory) (a : Nat) (h : ∀ c ∈ m, a < c.1) : m.read a = none := by
  induction m with
  | nil => rfl
  | cons c m ih =>
    obtain ⟨k, b⟩ := c
    have hk : a < k := h (k, b) (by simp)
    rw [Memory.read_cons, if_neg (by omega)]
    exact ih fun c hc => h c (by simp [hc])

/-- A store: the stored byte reads back, every other address reads as before. -/
theorem Memory.read_write (m : Memory) (a x : Nat) (v : Byte) :
    (m.write a v).read x = if a = x then some v else m.read x := by
  induction m with
  | nil => simp [Memory.write, Memory.read_cons]
  | cons c m ih =>
    obtain ⟨k, b⟩ := c
    simp only [Memory.write]
    split
    · simp [Memory.read_cons]
    · split
      · subst a; simp only [Memory.read_cons]; split <;> rfl
      · simp only [Memory.read_cons, ih]
        split <;> split <;> first | rfl | omega

/-- An unmapping: that address is not readable, every other address reads as before. -/
theorem Memory.read_unmap (m : Memory) (a x : Nat) :
    (m.unmap a).read x = if a = x then none else m.read x := by
  induction m with
  | nil => simp [Memory.unmap]
  | cons c m ih =>
    obtain ⟨k, b⟩ := c
    simp only [Memory.unmap]
    split
    · subst k; simp only [ih, Memory.read_cons]; split <;> rfl
    · simp only [Memory.read_cons, ih]
      split <;> split <;> first | rfl | omega

theorem Memory.mem_write {m : Memory} {a : Nat} {v : Byte} {c : Host.Cell} (h : c ∈ m.write a v) : c = (a, v) ∨ c ∈ m := by
  induction m with
  | nil => simpa [Memory.write] using h
  | cons d m ih =>
    obtain ⟨k, b⟩ := d
    simp only [Memory.write] at h
    split at h
    · simpa using h
    · split at h
      · simp only [List.mem_cons] at h ⊢; tauto
      · simp only [List.mem_cons] at h ⊢
        rcases h with h | h
        · exact .inr (.inl h)
        · exact (ih h).imp id .inr

theorem Memory.mem_unmap {m : Memory} {a : Nat} {c : Host.Cell} (h : c ∈ m.unmap a) : c ∈ m := by
  induction m with
  | nil => simp [Memory.unmap] at h
  | cons d m ih =>
    obtain ⟨k, b⟩ := d
    simp only [Memory.unmap] at h
    split at h
    · exact List.mem_cons_of_mem _ (ih h)
    · simp only [List.mem_cons] at h ⊢
      exact h.imp id ih

/-- A store keeps the canonical form. -/
theorem Memory.wf_write {m : Memory} {a : Nat} {v : Byte} (hm : m.wf = true) : (m.write a v).wf = true := by
  induction m with
  | nil => rfl
  | cons c m ih =>
    obtain ⟨k, b⟩ := c
    obtain ⟨hlt, hw⟩ := (Memory.wf_cons k b m).1 hm
    simp only [Memory.write]
    split
    · refine (Memory.wf_cons _ _ _).2 ⟨?_, hm⟩
      intro c hc
      rcases List.mem_cons.1 hc with rfl | hc
      · assumption
      · have := hlt c hc; omega
    · split
      · subst a; exact (Memory.wf_cons _ _ _).2 ⟨hlt, hw⟩
      · refine (Memory.wf_cons _ _ _).2 ⟨?_, ih hw⟩
        intro c hc
        rcases Memory.mem_write hc with rfl | hc
        · show k < a; omega
        · exact hlt c hc

/-- An unmapping keeps the canonical form. -/
theorem Memory.wf_unmap {m : Memory} {a : Nat} (hm : m.wf = true) : (m.unmap a).wf = true := by
  induction m with
  | nil => rfl
  | cons c m ih =>
    obtain ⟨k, b⟩ := c
    obtain ⟨hlt, hw⟩ := (Memory.wf_cons k b m).1 hm
    simp only [Memory.unmap]
    split
    · exact ih hw
    · exact (Memory.wf_cons _ _ _).2 ⟨fun c hc => hlt c (Memory.mem_unmap hc), ih hw⟩

/-- The memory after reset is in canonical form. -/
theorem Memory.wf_reset : State.reset.mem.wf = true := rfl

theorem Memory.within_iff (m : Memory) (addrW : Nat) : m.within addrW = true ↔ ∀ c ∈ m, c.1 < 2 ^ addrW := by
  simp [Memory.within]

/-- A store at an address keeps all listed bytes at addresses. -/
theorem Memory.within_write {m : Memory} {addrW a : Nat} {v : Byte} (hm : m.within addrW = true) (ha : a < 2 ^ addrW) :
    (m.write a v).within addrW = true := by
  rw [Memory.within_iff] at hm ⊢
  intro c hc
  rcases Memory.mem_write hc with rfl | hc
  · exact ha
  · exact hm c hc

/-- An unmapping keeps all listed bytes at addresses. -/
theorem Memory.within_unmap {m : Memory} {addrW a : Nat} (hm : m.within addrW = true) : (m.unmap a).within addrW = true := by
  rw [Memory.within_iff] at hm ⊢
  exact fun c hc => hm c (Memory.mem_unmap hc)

/-- The range check is sound: every address of a covered range is readable. -/
theorem Memory.isSome_of_covers {m : Memory} {a n : Nat} (h : m.covers a n = true) (i : Nat) (hi : i < n) :
    (m.read (a + i)).isSome := by
  induction m generalizing a n i with
  | nil => simp [Memory.covers] at h; omega
  | cons c m ih =>
    obtain ⟨k, b⟩ := c
    simp only [Memory.covers] at h
    rw [if_neg (by omega)] at h
    rw [Memory.read_cons]
    split
    · rfl
    · split at h
      · exact ih h i hi
      · split at h
        · have := ih h (i - 1) (by omega)
          rwa [show a + 1 + (i - 1) = a + i by omega] at this
        · simp at h

/-- The range check is complete on memory in canonical form. -/
theorem Memory.covers_of_isSome {m : Memory} (hm : m.wf = true) {a n : Nat}
    (h : ∀ i, i < n → (m.read (a + i)).isSome) : m.covers a n = true := by
  induction m generalizing a n with
  | nil =>
    rcases Nat.eq_zero_or_pos n with rfl | hn
    · rfl
    · simpa using h 0 hn
  | cons c m ih =>
    obtain ⟨k, b⟩ := c
    obtain ⟨hlt, hw⟩ := (Memory.wf_cons k b m).1 hm
    simp only [Memory.covers]
    split
    · rfl
    · rename_i hn
      split
      · rename_i hka
        refine ih hw fun i hi => ?_
        have := h i hi
        rwa [Memory.read_cons, if_neg (by omega)] at this
      · rename_i hka
        have h0 := h 0 (by omega)
        rw [Nat.add_zero, Memory.read_cons] at h0
        split at h0
        · subst k
          rw [if_pos rfl]
          refine ih hw fun i hi => ?_
          have := h (i + 1) (by omega)
          rwa [Memory.read_cons, if_neg (by omega), show a + (i + 1) = a + 1 + i by omega] at this
        · rw [Memory.read_eq_none_of_lt m a fun c hc => by have := hlt c hc; omega] at h0
          simp at h0

/-- On memory in canonical form the range check says exactly that every byte of the range is readable. -/
theorem Memory.covers_iff {m : Memory} (hm : m.wf = true) (a n : Nat) :
    m.covers a n = true ↔ ∀ i, i < n → (m.read (a + i)).isSome :=
  ⟨fun h i hi => Memory.isSome_of_covers h i hi, Memory.covers_of_isSome hm⟩

end Sys2Proof.Machine
end

