-- ==== Sys2Proof/Laws/State.lean ====
section
/-! SUPPORT. What each named update of the state leaves in each field: one lemma per field per update, so that no proof
unfolds a record update. -/

namespace Sys2Proof.Machine

variable (s : State)

/-! ### `State.withAgenda` -/

@[simp] theorem State.withAgenda_phase (rest : List HostMove) : (s.withAgenda rest).phase = s.phase := rfl
@[simp] theorem State.withAgenda_pass (rest : List HostMove) : (s.withAgenda rest).pass = s.pass := rfl
@[simp] theorem State.withAgenda_blk (rest : List HostMove) : (s.withAgenda rest).blk = s.blk := rfl
@[simp] theorem State.withAgenda_t (rest : List HostMove) : (s.withAgenda rest).t = s.t := rfl
@[simp] theorem State.withAgenda_mode (rest : List HostMove) : (s.withAgenda rest).mode = s.mode := rfl
@[simp] theorem State.withAgenda_busy (rest : List HostMove) : (s.withAgenda rest).busy = s.busy := rfl
@[simp] theorem State.withAgenda_valid (rest : List HostMove) : (s.withAgenda rest).valid = s.valid := rfl
@[simp] theorem State.withAgenda_srcAddr (rest : List HostMove) : (s.withAgenda rest).srcAddr = s.srcAddr := rfl
@[simp] theorem State.withAgenda_srcLen (rest : List HostMove) : (s.withAgenda rest).srcLen = s.srcLen := rfl
@[simp] theorem State.withAgenda_addrWritten (rest : List HostMove) : (s.withAgenda rest).addrWritten = s.addrWritten := rfl
@[simp] theorem State.withAgenda_lenWritten (rest : List HostMove) : (s.withAgenda rest).lenWritten = s.lenWritten := rfl
@[simp] theorem State.withAgenda_h (rest : List HostMove) : (s.withAgenda rest).h = s.h := rfl
@[simp] theorem State.withAgenda_v (rest : List HostMove) : (s.withAgenda rest).v = s.v := rfl
@[simp] theorem State.withAgenda_w (rest : List HostMove) : (s.withAgenda rest).w = s.w := rfl
@[simp] theorem State.withAgenda_mid (rest : List HostMove) : (s.withAgenda rest).mid = s.mid := rfl
@[simp] theorem State.withAgenda_digest (rest : List HostMove) : (s.withAgenda rest).digest = s.digest := rfl
@[simp] theorem State.withAgenda_addrW (rest : List HostMove) : (s.withAgenda rest).addrW = s.addrW := rfl
@[simp] theorem State.withAgenda_mem (rest : List HostMove) : (s.withAgenda rest).mem = s.mem := rfl
@[simp] theorem State.withAgenda_agenda (rest : List HostMove) : (s.withAgenda rest).agenda = rest := rfl
@[simp] theorem State.withAgenda_answers (rest : List HostMove) : (s.withAgenda rest).answers = s.answers := rfl

/-! ### `State.answer` -/

@[simp] theorem State.answer_phase (x : HostValue) : (s.answer x).phase = s.phase := rfl
@[simp] theorem State.answer_pass (x : HostValue) : (s.answer x).pass = s.pass := rfl
@[simp] theorem State.answer_blk (x : HostValue) : (s.answer x).blk = s.blk := rfl
@[simp] theorem State.answer_t (x : HostValue) : (s.answer x).t = s.t := rfl
@[simp] theorem State.answer_mode (x : HostValue) : (s.answer x).mode = s.mode := rfl
@[simp] theorem State.answer_busy (x : HostValue) : (s.answer x).busy = s.busy := rfl
@[simp] theorem State.answer_valid (x : HostValue) : (s.answer x).valid = s.valid := rfl
@[simp] theorem State.answer_srcAddr (x : HostValue) : (s.answer x).srcAddr = s.srcAddr := rfl
@[simp] theorem State.answer_srcLen (x : HostValue) : (s.answer x).srcLen = s.srcLen := rfl
@[simp] theorem State.answer_addrWritten (x : HostValue) : (s.answer x).addrWritten = s.addrWritten := rfl
@[simp] theorem State.answer_lenWritten (x : HostValue) : (s.answer x).lenWritten = s.lenWritten := rfl
@[simp] theorem State.answer_h (x : HostValue) : (s.answer x).h = s.h := rfl
@[simp] theorem State.answer_v (x : HostValue) : (s.answer x).v = s.v := rfl
@[simp] theorem State.answer_w (x : HostValue) : (s.answer x).w = s.w := rfl
@[simp] theorem State.answer_mid (x : HostValue) : (s.answer x).mid = s.mid := rfl
@[simp] theorem State.answer_digest (x : HostValue) : (s.answer x).digest = s.digest := rfl
@[simp] theorem State.answer_addrW (x : HostValue) : (s.answer x).addrW = s.addrW := rfl
@[simp] theorem State.answer_mem (x : HostValue) : (s.answer x).mem = s.mem := rfl
@[simp] theorem State.answer_agenda (x : HostValue) : (s.answer x).agenda = s.agenda := rfl
@[simp] theorem State.answer_answers (x : HostValue) : (s.answer x).answers = x :: s.answers := rfl

/-! ### `State.resetBlock` -/

@[simp] theorem State.resetBlock_phase : (s.resetBlock).phase = State.reset.phase := rfl
@[simp] theorem State.resetBlock_pass : (s.resetBlock).pass = State.reset.pass := rfl
@[simp] theorem State.resetBlock_blk : (s.resetBlock).blk = State.reset.blk := rfl
@[simp] theorem State.resetBlock_t : (s.resetBlock).t = State.reset.t := rfl
@[simp] theorem State.resetBlock_mode : (s.resetBlock).mode = State.reset.mode := rfl
@[simp] theorem State.resetBlock_busy : (s.resetBlock).busy = State.reset.busy := rfl
@[simp] theorem State.resetBlock_valid : (s.resetBlock).valid = State.reset.valid := rfl
@[simp] theorem State.resetBlock_srcAddr : (s.resetBlock).srcAddr = State.reset.srcAddr := rfl
@[simp] theorem State.resetBlock_srcLen : (s.resetBlock).srcLen = State.reset.srcLen := rfl
@[simp] theorem State.resetBlock_addrWritten : (s.resetBlock).addrWritten = State.reset.addrWritten := rfl
@[simp] theorem State.resetBlock_lenWritten : (s.resetBlock).lenWritten = State.reset.lenWritten := rfl
@[simp] theorem State.resetBlock_h : (s.resetBlock).h = State.reset.h := rfl
@[simp] theorem State.resetBlock_v : (s.resetBlock).v = State.reset.v := rfl
@[simp] theorem State.resetBlock_w : (s.resetBlock).w = State.reset.w := rfl
@[simp] theorem State.resetBlock_mid : (s.resetBlock).mid = State.reset.mid := rfl
@[simp] theorem State.resetBlock_digest : (s.resetBlock).digest = State.reset.digest := rfl
@[simp] theorem State.resetBlock_addrW : (s.resetBlock).addrW = s.addrW := rfl
@[simp] theorem State.resetBlock_mem : (s.resetBlock).mem = s.mem := rfl
@[simp] theorem State.resetBlock_agenda : (s.resetBlock).agenda = s.agenda := rfl
@[simp] theorem State.resetBlock_answers : (s.resetBlock).answers = s.answers := rfl

/-! ### `State.markStarted` -/

@[simp] theorem State.markStarted_phase : (s.markStarted).phase = s.phase := rfl
@[simp] theorem State.markStarted_pass : (s.markStarted).pass = s.pass := rfl
@[simp] theorem State.markStarted_blk : (s.markStarted).blk = s.blk := rfl
@[simp] theorem State.markStarted_t : (s.markStarted).t = s.t := rfl
@[simp] theorem State.markStarted_mode : (s.markStarted).mode = s.mode := rfl
@[simp] theorem State.markStarted_busy : (s.markStarted).busy = true := rfl
@[simp] theorem State.markStarted_valid : (s.markStarted).valid = false := rfl
@[simp] theorem State.markStarted_srcAddr : (s.markStarted).srcAddr = s.srcAddr := rfl
@[simp] theorem State.markStarted_srcLen : (s.markStarted).srcLen = s.srcLen := rfl
@[simp] theorem State.markStarted_addrWritten : (s.markStarted).addrWritten = s.addrWritten := rfl
@[simp] theorem State.markStarted_lenWritten : (s.markStarted).lenWritten = s.lenWritten := rfl
@[simp] theorem State.markStarted_h : (s.markStarted).h = s.h := rfl
@[simp] theorem State.markStarted_v : (s.markStarted).v = s.v := rfl
@[simp] theorem State.markStarted_w : (s.markStarted).w = s.w := rfl
@[simp] theorem State.markStarted_mid : (s.markStarted).mid = s.mid := rfl
@[simp] theorem State.markStarted_digest : (s.markStarted).digest = s.digest := rfl
@[simp] theorem State.markStarted_addrW : (s.markStarted).addrW = s.addrW := rfl
@[simp] theorem State.markStarted_mem : (s.markStarted).mem = s.mem := rfl
@[simp] theorem State.markStarted_agenda : (s.markStarted).agenda = s.agenda := rfl
@[simp] theorem State.markStarted_answers : (s.markStarted).answers = s.answers := rfl

/-! ### `State.markFinished` -/

@[simp] theorem State.markFinished_phase : (s.markFinished).phase = s.phase := rfl
@[simp] theorem State.markFinished_pass : (s.markFinished).pass = s.pass := rfl
@[simp] theorem State.markFinished_blk : (s.markFinished).blk = s.blk := rfl
@[simp] theorem State.markFinished_t : (s.markFinished).t = s.t := rfl
@[simp] theorem State.markFinished_mode : (s.markFinished).mode = s.mode := rfl
@[simp] theorem State.markFinished_busy : (s.markFinished).busy = false := rfl
@[simp] theorem State.markFinished_valid : (s.markFinished).valid = true := rfl
@[simp] theorem State.markFinished_srcAddr : (s.markFinished).srcAddr = s.srcAddr := rfl
@[simp] theorem State.markFinished_srcLen : (s.markFinished).srcLen = s.srcLen := rfl
@[simp] theorem State.markFinished_addrWritten : (s.markFinished).addrWritten = s.addrWritten := rfl
@[simp] theorem State.markFinished_lenWritten : (s.markFinished).lenWritten = s.lenWritten := rfl
@[simp] theorem State.markFinished_h : (s.markFinished).h = s.h := rfl
@[simp] theorem State.markFinished_v : (s.markFinished).v = s.v := rfl
@[simp] theorem State.markFinished_w : (s.markFinished).w = s.w := rfl
@[simp] theorem State.markFinished_mid : (s.markFinished).mid = s.mid := rfl
@[simp] theorem State.markFinished_digest : (s.markFinished).digest = s.digest := rfl
@[simp] theorem State.markFinished_addrW : (s.markFinished).addrW = s.addrW := rfl
@[simp] theorem State.markFinished_mem : (s.markFinished).mem = s.mem := rfl
@[simp] theorem State.markFinished_agenda : (s.markFinished).agenda = s.agenda := rfl
@[simp] theorem State.markFinished_answers : (s.markFinished).answers = s.answers := rfl

/-! ### `State.started` -/

@[simp] theorem State.started_phase (m : Bool) : (s.started m).phase = phaseInit := rfl
@[simp] theorem State.started_pass (m : Bool) : (s.started m).pass = false := rfl
@[simp] theorem State.started_blk (m : Bool) : (s.started m).blk = s.blk := rfl
@[simp] theorem State.started_t (m : Bool) : (s.started m).t = s.t := rfl
@[simp] theorem State.started_mode (m : Bool) : (s.started m).mode = m := rfl
@[simp] theorem State.started_busy (m : Bool) : (s.started m).busy = true := rfl
@[simp] theorem State.started_valid (m : Bool) : (s.started m).valid = false := rfl
@[simp] theorem State.started_srcAddr (m : Bool) : (s.started m).srcAddr = s.srcAddr := rfl
@[simp] theorem State.started_srcLen (m : Bool) : (s.started m).srcLen = s.srcLen := rfl
@[simp] theorem State.started_addrWritten (m : Bool) : (s.started m).addrWritten = s.addrWritten := rfl
@[simp] theorem State.started_lenWritten (m : Bool) : (s.started m).lenWritten = s.lenWritten := rfl
@[simp] theorem State.started_h (m : Bool) : (s.started m).h = s.h := rfl
@[simp] theorem State.started_v (m : Bool) : (s.started m).v = s.v := rfl
@[simp] theorem State.started_w (m : Bool) : (s.started m).w = s.w := rfl
@[simp] theorem State.started_mid (m : Bool) : (s.started m).mid = s.mid := rfl
@[simp] theorem State.started_digest (m : Bool) : (s.started m).digest = s.digest := rfl
@[simp] theorem State.started_addrW (m : Bool) : (s.started m).addrW = s.addrW := rfl
@[simp] theorem State.started_mem (m : Bool) : (s.started m).mem = s.mem := rfl
@[simp] theorem State.started_agenda (m : Bool) : (s.started m).agenda = s.agenda := rfl
@[simp] theorem State.started_answers (m : Bool) : (s.started m).answers = s.answers := rfl

/-! ### `State.afterInit` -/

@[simp] theorem State.afterInit_phase : (s.afterInit).phase = phaseLoad := rfl
@[simp] theorem State.afterInit_pass : (s.afterInit).pass = s.pass := rfl
@[simp] theorem State.afterInit_blk : (s.afterInit).blk = 0 := rfl
@[simp] theorem State.afterInit_t : (s.afterInit).t = s.t := rfl
@[simp] theorem State.afterInit_mode : (s.afterInit).mode = s.mode := rfl
@[simp] theorem State.afterInit_busy : (s.afterInit).busy = s.busy := rfl
@[simp] theorem State.afterInit_valid : (s.afterInit).valid = s.valid := rfl
@[simp] theorem State.afterInit_srcAddr : (s.afterInit).srcAddr = s.srcAddr := rfl
@[simp] theorem State.afterInit_srcLen : (s.afterInit).srcLen = s.srcLen := rfl
@[simp] theorem State.afterInit_addrWritten : (s.afterInit).addrWritten = s.addrWritten := rfl
@[simp] theorem State.afterInit_lenWritten : (s.afterInit).lenWritten = s.lenWritten := rfl
@[simp] theorem State.afterInit_h : (s.afterInit).h = iv := rfl
@[simp] theorem State.afterInit_v : (s.afterInit).v = s.v := rfl
@[simp] theorem State.afterInit_w : (s.afterInit).w = s.w := rfl
@[simp] theorem State.afterInit_mid : (s.afterInit).mid = s.mid := rfl
@[simp] theorem State.afterInit_digest : (s.afterInit).digest = s.digest := rfl
@[simp] theorem State.afterInit_addrW : (s.afterInit).addrW = s.addrW := rfl
@[simp] theorem State.afterInit_mem : (s.afterInit).mem = s.mem := rfl
@[simp] theorem State.afterInit_agenda : (s.afterInit).agenda = s.agenda := rfl
@[simp] theorem State.afterInit_answers : (s.afterInit).answers = s.answers := rfl

/-! ### `State.afterLoad` -/

@[simp] theorem State.afterLoad_phase : (s.afterLoad).phase = phaseExpand := rfl
@[simp] theorem State.afterLoad_pass : (s.afterLoad).pass = s.pass := rfl
@[simp] theorem State.afterLoad_blk : (s.afterLoad).blk = s.blk := rfl
@[simp] theorem State.afterLoad_t : (s.afterLoad).t = 16 := rfl
@[simp] theorem State.afterLoad_mode : (s.afterLoad).mode = s.mode := rfl
@[simp] theorem State.afterLoad_busy : (s.afterLoad).busy = s.busy := rfl
@[simp] theorem State.afterLoad_valid : (s.afterLoad).valid = s.valid := rfl
@[simp] theorem State.afterLoad_srcAddr : (s.afterLoad).srcAddr = s.srcAddr := rfl
@[simp] theorem State.afterLoad_srcLen : (s.afterLoad).srcLen = s.srcLen := rfl
@[simp] theorem State.afterLoad_addrWritten : (s.afterLoad).addrWritten = s.addrWritten := rfl
@[simp] theorem State.afterLoad_lenWritten : (s.afterLoad).lenWritten = s.lenWritten := rfl
@[simp] theorem State.afterLoad_h : (s.afterLoad).h = s.h := rfl
@[simp] theorem State.afterLoad_v : (s.afterLoad).v = s.v := rfl
@[simp] theorem State.afterLoad_w : (s.afterLoad).w = Vector.ofFn fun k => if k.val < 16 then s.blockWord k.val else s.w[k.val] := rfl
@[simp] theorem State.afterLoad_mid : (s.afterLoad).mid = s.mid := rfl
@[simp] theorem State.afterLoad_digest : (s.afterLoad).digest = s.digest := rfl
@[simp] theorem State.afterLoad_addrW : (s.afterLoad).addrW = s.addrW := rfl
@[simp] theorem State.afterLoad_mem : (s.afterLoad).mem = s.mem := rfl
@[simp] theorem State.afterLoad_agenda : (s.afterLoad).agenda = s.agenda := rfl
@[simp] theorem State.afterLoad_answers : (s.afterLoad).answers = s.answers := rfl

/-! ### `State.afterExpand` -/

@[simp] theorem State.afterExpand_phase : (s.afterExpand).phase = if s.t = 63#7 then phaseSetup else phaseExpand := rfl
@[simp] theorem State.afterExpand_pass : (s.afterExpand).pass = s.pass := rfl
@[simp] theorem State.afterExpand_blk : (s.afterExpand).blk = s.blk := rfl
@[simp] theorem State.afterExpand_t : (s.afterExpand).t = s.t + 1 := rfl
@[simp] theorem State.afterExpand_mode : (s.afterExpand).mode = s.mode := rfl
@[simp] theorem State.afterExpand_busy : (s.afterExpand).busy = s.busy := rfl
@[simp] theorem State.afterExpand_valid : (s.afterExpand).valid = s.valid := rfl
@[simp] theorem State.afterExpand_srcAddr : (s.afterExpand).srcAddr = s.srcAddr := rfl
@[simp] theorem State.afterExpand_srcLen : (s.afterExpand).srcLen = s.srcLen := rfl
@[simp] theorem State.afterExpand_addrWritten : (s.afterExpand).addrWritten = s.addrWritten := rfl
@[simp] theorem State.afterExpand_lenWritten : (s.afterExpand).lenWritten = s.lenWritten := rfl
@[simp] theorem State.afterExpand_h : (s.afterExpand).h = s.h := rfl
@[simp] theorem State.afterExpand_v : (s.afterExpand).v = s.v := rfl
@[simp] theorem State.afterExpand_w : (s.afterExpand).w = s.w.setIfInBounds s.t.toNat (scheduleWord s.w s.t.toNat) := rfl
@[simp] theorem State.afterExpand_mid : (s.afterExpand).mid = s.mid := rfl
@[simp] theorem State.afterExpand_digest : (s.afterExpand).digest = s.digest := rfl
@[simp] theorem State.afterExpand_addrW : (s.afterExpand).addrW = s.addrW := rfl
@[simp] theorem State.afterExpand_mem : (s.afterExpand).mem = s.mem := rfl
@[simp] theorem State.afterExpand_agenda : (s.afterExpand).agenda = s.agenda := rfl
@[simp] theorem State.afterExpand_answers : (s.afterExpand).answers = s.answers := rfl

/-! ### `State.afterSetup` -/

@[simp] theorem State.afterSetup_phase : (s.afterSetup).phase = phaseRound := rfl
@[simp] theorem State.afterSetup_pass : (s.afterSetup).pass = s.pass := rfl
@[simp] theorem State.afterSetup_blk : (s.afterSetup).blk = s.blk := rfl
@[simp] theorem State.afterSetup_t : (s.afterSetup).t = 0 := rfl
@[simp] theorem State.afterSetup_mode : (s.afterSetup).mode = s.mode := rfl
@[simp] theorem State.afterSetup_busy : (s.afterSetup).busy = s.busy := rfl
@[simp] theorem State.afterSetup_valid : (s.afterSetup).valid = s.valid := rfl
@[simp] theorem State.afterSetup_srcAddr : (s.afterSetup).srcAddr = s.srcAddr := rfl
@[simp] theorem State.afterSetup_srcLen : (s.afterSetup).srcLen = s.srcLen := rfl
@[simp] theorem State.afterSetup_addrWritten : (s.afterSetup).addrWritten = s.addrWritten := rfl
@[simp] theorem State.afterSetup_lenWritten : (s.afterSetup).lenWritten = s.lenWritten := rfl
@[simp] theorem State.afterSetup_h : (s.afterSetup).h = s.h := rfl
@[simp] theorem State.afterSetup_v : (s.afterSetup).v = s.h := rfl
@[simp] theorem State.afterSetup_w : (s.afterSetup).w = s.w := rfl
@[simp] theorem State.afterSetup_mid : (s.afterSetup).mid = s.mid := rfl
@[simp] theorem State.afterSetup_digest : (s.afterSetup).digest = s.digest := rfl
@[simp] theorem State.afterSetup_addrW : (s.afterSetup).addrW = s.addrW := rfl
@[simp] theorem State.afterSetup_mem : (s.afterSetup).mem = s.mem := rfl
@[simp] theorem State.afterSetup_agenda : (s.afterSetup).agenda = s.agenda := rfl
@[simp] theorem State.afterSetup_answers : (s.afterSetup).answers = s.answers := rfl

/-! ### `State.afterRound` -/

@[simp] theorem State.afterRound_phase : (s.afterRound).phase = if s.t = 63#7 then phaseChain else phaseRound := rfl
@[simp] theorem State.afterRound_pass : (s.afterRound).pass = s.pass := rfl
@[simp] theorem State.afterRound_blk : (s.afterRound).blk = s.blk := rfl
@[simp] theorem State.afterRound_t : (s.afterRound).t = s.t + 1 := rfl
@[simp] theorem State.afterRound_mode : (s.afterRound).mode = s.mode := rfl
@[simp] theorem State.afterRound_busy : (s.afterRound).busy = s.busy := rfl
@[simp] theorem State.afterRound_valid : (s.afterRound).valid = s.valid := rfl
@[simp] theorem State.afterRound_srcAddr : (s.afterRound).srcAddr = s.srcAddr := rfl
@[simp] theorem State.afterRound_srcLen : (s.afterRound).srcLen = s.srcLen := rfl
@[simp] theorem State.afterRound_addrWritten : (s.afterRound).addrWritten = s.addrWritten := rfl
@[simp] theorem State.afterRound_lenWritten : (s.afterRound).lenWritten = s.lenWritten := rfl
@[simp] theorem State.afterRound_h : (s.afterRound).h = s.h := rfl
@[simp] theorem State.afterRound_v : (s.afterRound).v = roundStep s.v (kAt s.t.toNat) (wordAt s.w s.t.toNat) := rfl
@[simp] theorem State.afterRound_w : (s.afterRound).w = s.w := rfl
@[simp] theorem State.afterRound_mid : (s.afterRound).mid = s.mid := rfl
@[simp] theorem State.afterRound_digest : (s.afterRound).digest = s.digest := rfl
@[simp] theorem State.afterRound_addrW : (s.afterRound).addrW = s.addrW := rfl
@[simp] theorem State.afterRound_mem : (s.afterRound).mem = s.mem := rfl
@[simp] theorem State.afterRound_agenda : (s.afterRound).agenda = s.agenda := rfl
@[simp] theorem State.afterRound_answers : (s.afterRound).answers = s.answers := rfl

/-! ### `State.afterChain` -/

@[simp] theorem State.afterChain_phase : (s.afterChain).phase = if s.moreBlocks then phaseLoad else if s.mode && !s.pass then phaseXfer else phaseFinish := rfl
@[simp] theorem State.afterChain_pass : (s.afterChain).pass = s.pass := rfl
@[simp] theorem State.afterChain_blk : (s.afterChain).blk = if s.moreBlocks then s.blk + 1 else s.blk := rfl
@[simp] theorem State.afterChain_t : (s.afterChain).t = s.t := rfl
@[simp] theorem State.afterChain_mode : (s.afterChain).mode = s.mode := rfl
@[simp] theorem State.afterChain_busy : (s.afterChain).busy = s.busy := rfl
@[simp] theorem State.afterChain_valid : (s.afterChain).valid = s.valid := rfl
@[simp] theorem State.afterChain_srcAddr : (s.afterChain).srcAddr = s.srcAddr := rfl
@[simp] theorem State.afterChain_srcLen : (s.afterChain).srcLen = s.srcLen := rfl
@[simp] theorem State.afterChain_addrWritten : (s.afterChain).addrWritten = s.addrWritten := rfl
@[simp] theorem State.afterChain_lenWritten : (s.afterChain).lenWritten = s.lenWritten := rfl
@[simp] theorem State.afterChain_h : (s.afterChain).h = addWords s.h s.v := rfl
@[simp] theorem State.afterChain_v : (s.afterChain).v = s.v := rfl
@[simp] theorem State.afterChain_w : (s.afterChain).w = s.w := rfl
@[simp] theorem State.afterChain_mid : (s.afterChain).mid = s.mid := rfl
@[simp] theorem State.afterChain_digest : (s.afterChain).digest = s.digest := rfl
@[simp] theorem State.afterChain_addrW : (s.afterChain).addrW = s.addrW := rfl
@[simp] theorem State.afterChain_mem : (s.afterChain).mem = s.mem := rfl
@[simp] theorem State.afterChain_agenda : (s.afterChain).agenda = s.agenda := rfl
@[simp] theorem State.afterChain_answers : (s.afterChain).answers = s.answers := rfl

/-! ### `State.afterXfer` -/

@[simp] theorem State.afterXfer_phase : (s.afterXfer).phase = phaseInit := rfl
@[simp] theorem State.afterXfer_pass : (s.afterXfer).pass = true := rfl
@[simp] theorem State.afterXfer_blk : (s.afterXfer).blk = s.blk := rfl
@[simp] theorem State.afterXfer_t : (s.afterXfer).t = s.t := rfl
@[simp] theorem State.afterXfer_mode : (s.afterXfer).mode = s.mode := rfl
@[simp] theorem State.afterXfer_busy : (s.afterXfer).busy = s.busy := rfl
@[simp] theorem State.afterXfer_valid : (s.afterXfer).valid = s.valid := rfl
@[simp] theorem State.afterXfer_srcAddr : (s.afterXfer).srcAddr = s.srcAddr := rfl
@[simp] theorem State.afterXfer_srcLen : (s.afterXfer).srcLen = s.srcLen := rfl
@[simp] theorem State.afterXfer_addrWritten : (s.afterXfer).addrWritten = s.addrWritten := rfl
@[simp] theorem State.afterXfer_lenWritten : (s.afterXfer).lenWritten = s.lenWritten := rfl
@[simp] theorem State.afterXfer_h : (s.afterXfer).h = s.h := rfl
@[simp] theorem State.afterXfer_v : (s.afterXfer).v = s.v := rfl
@[simp] theorem State.afterXfer_w : (s.afterXfer).w = s.w := rfl
@[simp] theorem State.afterXfer_mid : (s.afterXfer).mid = ser s.h := rfl
@[simp] theorem State.afterXfer_digest : (s.afterXfer).digest = s.digest := rfl
@[simp] theorem State.afterXfer_addrW : (s.afterXfer).addrW = s.addrW := rfl
@[simp] theorem State.afterXfer_mem : (s.afterXfer).mem = s.mem := rfl
@[simp] theorem State.afterXfer_agenda : (s.afterXfer).agenda = s.agenda := rfl
@[simp] theorem State.afterXfer_answers : (s.afterXfer).answers = s.answers := rfl

/-! ### `State.afterFinish` -/

@[simp] theorem State.afterFinish_phase : (s.afterFinish).phase = phaseIdle := rfl
@[simp] theorem State.afterFinish_pass : (s.afterFinish).pass = s.pass := rfl
@[simp] theorem State.afterFinish_blk : (s.afterFinish).blk = s.blk := rfl
@[simp] theorem State.afterFinish_t : (s.afterFinish).t = s.t := rfl
@[simp] theorem State.afterFinish_mode : (s.afterFinish).mode = s.mode := rfl
@[simp] theorem State.afterFinish_busy : (s.afterFinish).busy = false := rfl
@[simp] theorem State.afterFinish_valid : (s.afterFinish).valid = true := rfl
@[simp] theorem State.afterFinish_srcAddr : (s.afterFinish).srcAddr = s.srcAddr := rfl
@[simp] theorem State.afterFinish_srcLen : (s.afterFinish).srcLen = s.srcLen := rfl
@[simp] theorem State.afterFinish_addrWritten : (s.afterFinish).addrWritten = s.addrWritten := rfl
@[simp] theorem State.afterFinish_lenWritten : (s.afterFinish).lenWritten = s.lenWritten := rfl
@[simp] theorem State.afterFinish_h : (s.afterFinish).h = s.h := rfl
@[simp] theorem State.afterFinish_v : (s.afterFinish).v = s.v := rfl
@[simp] theorem State.afterFinish_w : (s.afterFinish).w = s.w := rfl
@[simp] theorem State.afterFinish_mid : (s.afterFinish).mid = s.mid := rfl
@[simp] theorem State.afterFinish_digest : (s.afterFinish).digest = ser s.h := rfl
@[simp] theorem State.afterFinish_addrW : (s.afterFinish).addrW = s.addrW := rfl
@[simp] theorem State.afterFinish_mem : (s.afterFinish).mem = s.mem := rfl
@[simp] theorem State.afterFinish_agenda : (s.afterFinish).agenda = s.agenda := rfl
@[simp] theorem State.afterFinish_answers : (s.afterFinish).answers = s.answers := rfl

/-! ### `State.withSrcAddr` -/

@[simp] theorem State.withSrcAddr_phase (x : Addr) : (s.withSrcAddr x).phase = s.phase := rfl
@[simp] theorem State.withSrcAddr_pass (x : Addr) : (s.withSrcAddr x).pass = s.pass := rfl
@[simp] theorem State.withSrcAddr_blk (x : Addr) : (s.withSrcAddr x).blk = s.blk := rfl
@[simp] theorem State.withSrcAddr_t (x : Addr) : (s.withSrcAddr x).t = s.t := rfl
@[simp] theorem State.withSrcAddr_mode (x : Addr) : (s.withSrcAddr x).mode = s.mode := rfl
@[simp] theorem State.withSrcAddr_busy (x : Addr) : (s.withSrcAddr x).busy = s.busy := rfl
@[simp] theorem State.withSrcAddr_valid (x : Addr) : (s.withSrcAddr x).valid = s.valid := rfl
@[simp] theorem State.withSrcAddr_srcAddr (x : Addr) : (s.withSrcAddr x).srcAddr = x := rfl
@[simp] theorem State.withSrcAddr_srcLen (x : Addr) : (s.withSrcAddr x).srcLen = s.srcLen := rfl
@[simp] theorem State.withSrcAddr_addrWritten (x : Addr) : (s.withSrcAddr x).addrWritten = true := rfl
@[simp] theorem State.withSrcAddr_lenWritten (x : Addr) : (s.withSrcAddr x).lenWritten = s.lenWritten := rfl
@[simp] theorem State.withSrcAddr_h (x : Addr) : (s.withSrcAddr x).h = s.h := rfl
@[simp] theorem State.withSrcAddr_v (x : Addr) : (s.withSrcAddr x).v = s.v := rfl
@[simp] theorem State.withSrcAddr_w (x : Addr) : (s.withSrcAddr x).w = s.w := rfl
@[simp] theorem State.withSrcAddr_mid (x : Addr) : (s.withSrcAddr x).mid = s.mid := rfl
@[simp] theorem State.withSrcAddr_digest (x : Addr) : (s.withSrcAddr x).digest = s.digest := rfl
@[simp] theorem State.withSrcAddr_addrW (x : Addr) : (s.withSrcAddr x).addrW = s.addrW := rfl
@[simp] theorem State.withSrcAddr_mem (x : Addr) : (s.withSrcAddr x).mem = s.mem := rfl
@[simp] theorem State.withSrcAddr_agenda (x : Addr) : (s.withSrcAddr x).agenda = s.agenda := rfl
@[simp] theorem State.withSrcAddr_answers (x : Addr) : (s.withSrcAddr x).answers = s.answers := rfl

/-! ### `State.withSrcLen` -/

@[simp] theorem State.withSrcLen_phase (x : Len) : (s.withSrcLen x).phase = s.phase := rfl
@[simp] theorem State.withSrcLen_pass (x : Len) : (s.withSrcLen x).pass = s.pass := rfl
@[simp] theorem State.withSrcLen_blk (x : Len) : (s.withSrcLen x).blk = s.blk := rfl
@[simp] theorem State.withSrcLen_t (x : Len) : (s.withSrcLen x).t = s.t := rfl
@[simp] theorem State.withSrcLen_mode (x : Len) : (s.withSrcLen x).mode = s.mode := rfl
@[simp] theorem State.withSrcLen_busy (x : Len) : (s.withSrcLen x).busy = s.busy := rfl
@[simp] theorem State.withSrcLen_valid (x : Len) : (s.withSrcLen x).valid = s.valid := rfl
@[simp] theorem State.withSrcLen_srcAddr (x : Len) : (s.withSrcLen x).srcAddr = s.srcAddr := rfl
@[simp] theorem State.withSrcLen_srcLen (x : Len) : (s.withSrcLen x).srcLen = x := rfl
@[simp] theorem State.withSrcLen_addrWritten (x : Len) : (s.withSrcLen x).addrWritten = s.addrWritten := rfl
@[simp] theorem State.withSrcLen_lenWritten (x : Len) : (s.withSrcLen x).lenWritten = true := rfl
@[simp] theorem State.withSrcLen_h (x : Len) : (s.withSrcLen x).h = s.h := rfl
@[simp] theorem State.withSrcLen_v (x : Len) : (s.withSrcLen x).v = s.v := rfl
@[simp] theorem State.withSrcLen_w (x : Len) : (s.withSrcLen x).w = s.w := rfl
@[simp] theorem State.withSrcLen_mid (x : Len) : (s.withSrcLen x).mid = s.mid := rfl
@[simp] theorem State.withSrcLen_digest (x : Len) : (s.withSrcLen x).digest = s.digest := rfl
@[simp] theorem State.withSrcLen_addrW (x : Len) : (s.withSrcLen x).addrW = s.addrW := rfl
@[simp] theorem State.withSrcLen_mem (x : Len) : (s.withSrcLen x).mem = s.mem := rfl
@[simp] theorem State.withSrcLen_agenda (x : Len) : (s.withSrcLen x).agenda = s.agenda := rfl
@[simp] theorem State.withSrcLen_answers (x : Len) : (s.withSrcLen x).answers = s.answers := rfl

/-! ### `State.withByte` -/

@[simp] theorem State.withByte_phase (a : Addr) (b : Byte) : (s.withByte a b).phase = s.phase := rfl
@[simp] theorem State.withByte_pass (a : Addr) (b : Byte) : (s.withByte a b).pass = s.pass := rfl
@[simp] theorem State.withByte_blk (a : Addr) (b : Byte) : (s.withByte a b).blk = s.blk := rfl
@[simp] theorem State.withByte_t (a : Addr) (b : Byte) : (s.withByte a b).t = s.t := rfl
@[simp] theorem State.withByte_mode (a : Addr) (b : Byte) : (s.withByte a b).mode = s.mode := rfl
@[simp] theorem State.withByte_busy (a : Addr) (b : Byte) : (s.withByte a b).busy = s.busy := rfl
@[simp] theorem State.withByte_valid (a : Addr) (b : Byte) : (s.withByte a b).valid = s.valid := rfl
@[simp] theorem State.withByte_srcAddr (a : Addr) (b : Byte) : (s.withByte a b).srcAddr = s.srcAddr := rfl
@[simp] theorem State.withByte_srcLen (a : Addr) (b : Byte) : (s.withByte a b).srcLen = s.srcLen := rfl
@[simp] theorem State.withByte_addrWritten (a : Addr) (b : Byte) : (s.withByte a b).addrWritten = s.addrWritten := rfl
@[simp] theorem State.withByte_lenWritten (a : Addr) (b : Byte) : (s.withByte a b).lenWritten = s.lenWritten := rfl
@[simp] theorem State.withByte_h (a : Addr) (b : Byte) : (s.withByte a b).h = s.h := rfl
@[simp] theorem State.withByte_v (a : Addr) (b : Byte) : (s.withByte a b).v = s.v := rfl
@[simp] theorem State.withByte_w (a : Addr) (b : Byte) : (s.withByte a b).w = s.w := rfl
@[simp] theorem State.withByte_mid (a : Addr) (b : Byte) : (s.withByte a b).mid = s.mid := rfl
@[simp] theorem State.withByte_digest (a : Addr) (b : Byte) : (s.withByte a b).digest = s.digest := rfl
@[simp] theorem State.withByte_addrW (a : Addr) (b : Byte) : (s.withByte a b).addrW = s.addrW := rfl
@[simp] theorem State.withByte_mem (a : Addr) (b : Byte) : (s.withByte a b).mem = s.mem.write a b := rfl
@[simp] theorem State.withByte_agenda (a : Addr) (b : Byte) : (s.withByte a b).agenda = s.agenda := rfl
@[simp] theorem State.withByte_answers (a : Addr) (b : Byte) : (s.withByte a b).answers = s.answers := rfl

/-! ### `State.withoutByte` -/

@[simp] theorem State.withoutByte_phase (a : Addr) : (s.withoutByte a).phase = s.phase := rfl
@[simp] theorem State.withoutByte_pass (a : Addr) : (s.withoutByte a).pass = s.pass := rfl
@[simp] theorem State.withoutByte_blk (a : Addr) : (s.withoutByte a).blk = s.blk := rfl
@[simp] theorem State.withoutByte_t (a : Addr) : (s.withoutByte a).t = s.t := rfl
@[simp] theorem State.withoutByte_mode (a : Addr) : (s.withoutByte a).mode = s.mode := rfl
@[simp] theorem State.withoutByte_busy (a : Addr) : (s.withoutByte a).busy = s.busy := rfl
@[simp] theorem State.withoutByte_valid (a : Addr) : (s.withoutByte a).valid = s.valid := rfl
@[simp] theorem State.withoutByte_srcAddr (a : Addr) : (s.withoutByte a).srcAddr = s.srcAddr := rfl
@[simp] theorem State.withoutByte_srcLen (a : Addr) : (s.withoutByte a).srcLen = s.srcLen := rfl
@[simp] theorem State.withoutByte_addrWritten (a : Addr) : (s.withoutByte a).addrWritten = s.addrWritten := rfl
@[simp] theorem State.withoutByte_lenWritten (a : Addr) : (s.withoutByte a).lenWritten = s.lenWritten := rfl
@[simp] theorem State.withoutByte_h (a : Addr) : (s.withoutByte a).h = s.h := rfl
@[simp] theorem State.withoutByte_v (a : Addr) : (s.withoutByte a).v = s.v := rfl
@[simp] theorem State.withoutByte_w (a : Addr) : (s.withoutByte a).w = s.w := rfl
@[simp] theorem State.withoutByte_mid (a : Addr) : (s.withoutByte a).mid = s.mid := rfl
@[simp] theorem State.withoutByte_digest (a : Addr) : (s.withoutByte a).digest = s.digest := rfl
@[simp] theorem State.withoutByte_addrW (a : Addr) : (s.withoutByte a).addrW = s.addrW := rfl
@[simp] theorem State.withoutByte_mem (a : Addr) : (s.withoutByte a).mem = s.mem.unmap a := rfl
@[simp] theorem State.withoutByte_agenda (a : Addr) : (s.withoutByte a).agenda = s.agenda := rfl
@[simp] theorem State.withoutByte_answers (a : Addr) : (s.withoutByte a).answers = s.answers := rfl

end Sys2Proof.Machine
end

