-- ==== Sys2Proof/Laws/Exec.lean ====
section
/-! SUPPORT. One lemma per meaning and per shared operation, saying once everything it can do; and what one step can do. -/

namespace Sys2Proof.Machine

/-! ### Command starts -/

theorem State.descriptorValid_iff {s : State} (hw : s.mem.wf = true) :
    s.descriptorValid = true ↔ s.srcAddr + s.srcLen.toNat ≤ 2 ^ s.addrW ∧ s.messageReadable := by
  simp [State.descriptorValid, rangeFits, Memory.covers_iff hw, State.messageReadable, State.memRead]

theorem startCommand_next {mode : Bool} {s t : State} (h : startCommand mode s = .next t) :
    s.busy = false ∧ s.addrWritten = true ∧ s.lenWritten = true ∧ s.descriptorValid = true ∧ t = s.started mode := by
  unfold startCommand at h
  split at h
  · cases h
  · split at h
    · cases h
    · split at h
      · cases h
      · cases h; simp_all

theorem startCommand_of_canStart {s : State} (h : s.CanStart) (mode : Bool) :
    startCommand mode s = .next (s.started mode) := by
  have hv : s.descriptorValid = true := (State.descriptorValid_iff h.mem_wf).2 ⟨h.fits, h.readable⟩
  simp [startCommand, h.idle, h.addr_written, h.len_written, hv]

/-! ### Micro-operations with a condition -/

theorem execLoad_next {s t : State} (h : execLoad s = .next t) :
    s.blk.toNat < s.nblk ∧ s.blockReadable = true ∧ t = s.afterLoad := by
  unfold execLoad at h
  split at h
  · cases h
  · split at h
    · cases h
    · cases h; simp_all

theorem execLoad_of {s : State} (hb : s.blk.toNat < s.nblk) (hr : s.blockReadable = true) :
    execLoad s = .next s.afterLoad := by
  simp [execLoad, hr, Nat.not_le.2 hb]

theorem execExpand_next {s t : State} (h : execExpand s = .next t) :
    16 ≤ s.t.toNat ∧ s.t.toNat ≤ 63 ∧ t = s.afterExpand := by
  unfold execExpand at h
  split at h
  · cases h; simp_all
  · cases h

theorem execRound_next {s t : State} (h : execRound s = .next t) : s.t.toNat ≤ 63 ∧ t = s.afterRound := by
  unfold execRound at h
  split at h
  · cases h; simp_all
  · cases h

/-- The message bytes of block `BLK` are readable when all message bytes are. -/
theorem State.blockReadable_of {s : State} (h : s.pass = false → s.messageReadable) : s.blockReadable = true := by
  unfold State.blockReadable
  cases hp : s.pass with
  | true => rfl
  | false =>
    simp only [Bool.false_or, List.all_eq_true, List.mem_range]
    intro i hi
    have hl : s.messageLen = s.srcLen.toNat := by simp [State.messageLen, hp]
    have := h hp (64 * s.blk.toNat + i) (by simp only [State.blockBytes, hl] at hi; omega)
    rwa [← Nat.add_assoc] at this

/-! ### Every instruction -/

/-- What instruction `i` has done when it takes `s` to `t`. -/
def ExecNext (i : Instr) (s t : State) : Prop :=
  match i with
  | .sha256 => s.busy = false ∧ s.addrWritten = true ∧ s.lenWritten = true ∧ s.descriptorValid = true ∧ t = s.started false
  | .sha256d => s.busy = false ∧ s.addrWritten = true ∧ s.lenWritten = true ∧ s.descriptorValid = true ∧ t = s.started true
  | .idle => t = s
  | .init => t = s.afterInit
  | .load => s.blk.toNat < s.nblk ∧ s.blockReadable = true ∧ t = s.afterLoad
  | .expand => 16 ≤ s.t.toNat ∧ s.t.toNat ≤ 63 ∧ t = s.afterExpand
  | .setup => t = s.afterSetup
  | .round => s.t.toNat ≤ 63 ∧ t = s.afterRound
  | .chain => t = s.afterChain
  | .xfer => t = s.afterXfer
  | .finish => t = s.afterFinish

/-- What an instruction that answers a next state has done. -/
theorem exec_next {i : Instr} {s t : State} (h : exec i s = .next t) : ExecNext i s t := by
  cases i with
  | sha256 => exact startCommand_next h
  | sha256d => exact startCommand_next h
  | load => exact execLoad_next h
  | expand => exact execExpand_next h
  | round => exact execRound_next h
  | idle => cases h; rfl
  | init => cases h; rfl
  | setup => cases h; rfl
  | chain => cases h; rfl
  | xfer => cases h; rfl
  | finish => cases h; rfl

/-! ### Well-formedness and the host's side -/

/-- The pending moves play no part in well-formedness. -/
theorem State.inv_withAgenda {s : State} (h : s.Inv) (rest : List HostMove) : (s.withAgenda rest).Inv := by
  cases h; constructor <;> assumption

/-- Nor do the answers the host has got. -/
theorem State.inv_answer {s : State} (h : s.Inv) (x : HostValue) : (s.answer x).Inv := by
  cases h; constructor <;> assumption

/-! ### Outside actions -/

theorem State.inMessage_iff (s : State) (a : Addr) :
    s.inMessage a = true ↔ s.srcAddr ≤ a ∧ a < s.srcAddr + s.srcLen.toNat := by
  simp [State.inMessage]

theorem State.isAddress_iff (s : State) (a : Addr) : s.isAddress a = true ↔ a < 2 ^ s.addrW := by
  simp [State.isAddress]

/-- What outside action `a` has done when it takes `s` to `t`. -/
def ActionNext (a : HostAction) (s t : State) : Prop :=
  match a with
  | .setSrcAddr v => s.busy = false ∧ t = s.withSrcAddr v
  | .setSrcLen v => s.busy = false ∧ t = s.withSrcLen v
  | .read .status => t = s.answer (.status s.statusWord)
  | .read .srcAddr => s.addrWritten = true ∧ t = s.answer (.srcAddr s.srcAddr)
  | .read .srcLen => s.lenWritten = true ∧ t = s.answer (.srcLen s.srcLen)
  | .read (.digestWord j) => s.valid = true ∧ t = s.answer (.digestWord j (digestWord s.digest j))
  | .readDigest => s.valid = true ∧ t = s.answer (.digest s.digest)
  | .pollDone => t = s.answer (.status s.statusWord)
  | .memStore addr byte => s.isAddress addr = true ∧ ¬(s.busy = true ∧ s.inMessage addr = true) ∧ t = s.withByte addr byte
  | .memUnmap addr => s.isAddress addr = true ∧ ¬(s.busy = true ∧ s.inMessage addr = true) ∧ t = s.withoutByte addr
  | .reset => t = s.resetBlock

/-- What an outside action that answers a next state has done. -/
theorem hostAction_next {a : HostAction} {s t : State} (h : hostAction a s = .next t) : ActionNext a s t := by
  cases a with
  | setSrcAddr v => simp only [hostAction, writeSrcAddr] at h; split at h <;> cases h; simp_all [ActionNext]
  | setSrcLen v => simp only [hostAction, writeSrcLen] at h; split at h <;> cases h; simp_all [ActionNext]
  | read r =>
    cases r with
    | status => cases h; rfl
    | srcAddr => simp only [hostAction, readReg] at h; split at h <;> cases h; simp_all [ActionNext]
    | srcLen => simp only [hostAction, readReg] at h; split at h <;> cases h; simp_all [ActionNext]
    | digestWord j => simp only [hostAction, readReg] at h; split at h <;> cases h; simp_all [ActionNext]
  | readDigest => simp only [hostAction, readDigest] at h; split at h <;> cases h; simp_all [ActionNext]
  | pollDone => cases h; rfl
  | memStore addr byte =>
    simp only [hostAction, storeByte] at h
    repeat' split at h
    all_goals cases h
    simp_all [ActionNext]
  | memUnmap addr =>
    simp only [hostAction, unmapByte] at h
    repeat' split at h
    all_goals cases h
    simp_all [ActionNext]
  | reset => cases h; rfl

/-! ### Decoding and fetching -/

/-- The codes and their instructions, read in either direction. -/
theorem decode_eq_some_iff (c : Code) (i : Instr) : decode c = some i ↔ c = encode i := by
  constructor
  · cases c with
    | cmd w =>
      simp only [decode, decodeCmd]
      repeat' split
      all_goals (intro h; cases h; try subst w; try rfl)
    | phase p =>
      simp only [decode, decodePhase]
      repeat' split
      all_goals (intro h; cases h; try subst p; try rfl)
  · rintro rfl; cases i <;> rfl

/-- Only the two commands are written to register 0. -/
theorem decodeWrite_command {addrW n v : Nat} {i : Instr} (h : decodeWrite addrW n v = .ok (.command i)) :
    i = .sha256 ∨ i = .sha256d := by
  unfold decodeWrite at h
  repeat' split at h
  all_goals cases h
  rename_i j hj
  have hc := (decode_eq_some_iff (.cmd (BitVec.ofNat 32 v)) i).1 hj
  cases i <;> simp [encode] at hc ⊢

/-- A register write is decoded into a command or a descriptor action, never a store, an unmapping or a reset; an address
that decodes fits its width. -/
theorem decodeWrite_action {addrW n v : Nat} {a : HostAction} (h : decodeWrite addrW n v = .ok (.action a)) :
    (∃ x, a = .setSrcAddr x ∧ x < 2 ^ addrW) ∨ (∃ x, a = .setSrcLen x) := by
  unfold decodeWrite at h
  repeat' split at h
  all_goals cases h
  · exact .inl ⟨_, rfl, by assumption⟩
  · exact .inr ⟨_, rfl⟩

/-- Action `a` is what the outside move `m` asks for, as far as memory and reset are concerned, and an address it writes to
SRC_ADDR fits `addrW` bits. -/
def comesFrom (addrW : Nat) (a : HostAction) (m : HostMove) : Prop :=
  (∀ x, a = .setSrcAddr x → x < 2 ^ addrW) ∧ (∀ x b, a = .memStore x b → m = .memStore x b) ∧ (∀ x, a = .memUnmap x → m = .memUnmap x) ∧ (a = .reset → m = .reset)

/-- What the fetch of a step can be: the sequencer's turn, a command word, another outside action, or a refusal; always on
the state with nothing but the agenda changed. -/
theorem fetch_cases (s : State) :
    (∃ ag, fetch s = fetchPhase (s.withAgenda ag)) ∨
    (∃ i ag, (i = .sha256 ∨ i = .sha256d) ∧ fetch s = .instr i (s.withAgenda ag)) ∨
    (∃ a m ag, s.agenda = m :: ag ∧ comesFrom s.addrW a m ∧ fetch s = .action a (s.withAgenda ag)) ∨ (∃ r, fetch s = .refuse r) := by
  unfold fetch
  split
  · rename_i h; exact .inl ⟨[], by rw [show s.withAgenda [] = s by unfold State.withAgenda; rw [← h]]⟩
  · exact .inl ⟨_, rfl⟩
  · rename_i rest h
    split
    · exact .inr (.inr (.inl ⟨_, _, _, h, by simp [comesFrom], rfl⟩))
    · exact .inl ⟨_, by rw [show s.withAgenda (.waitValid :: rest) = s by unfold State.withAgenda; rw [← h]]⟩
  · rename_i n v rest h
    unfold fetchWrite
    split
    · rename_i i hd
      exact .inr (.inl ⟨i, rest, decodeWrite_command hd, rfl⟩)
    · rename_i a hd
      refine .inr (.inr (.inl ⟨_, _, _, h, ?_, rfl⟩))
      rcases decodeWrite_action hd with ⟨x, rfl, hx⟩ | ⟨x, rfl⟩
      · simpa [comesFrom] using hx
      · simp [comesFrom]
    · exact .inr (.inr (.inr ⟨_, rfl⟩))
  · rename_i h
    unfold fetchRead
    split
    · exact .inr (.inr (.inl ⟨_, _, _, h, by simp [comesFrom], rfl⟩))
    · exact .inr (.inr (.inr ⟨_, rfl⟩))
  · rename_i h; exact .inr (.inr (.inl ⟨_, _, _, h, by simp [comesFrom], rfl⟩))
  · rename_i h; exact .inr (.inr (.inl ⟨_, _, _, h, by simp [comesFrom], rfl⟩))
  · rename_i h; exact .inr (.inr (.inl ⟨_, _, _, h, by simp [comesFrom], rfl⟩))
  · rename_i h; exact .inr (.inr (.inl ⟨_, _, _, h, by simp [comesFrom], rfl⟩))

/-- What a step that answers a next state has done: the micro-operation PHASE names, a command start, or an outside
action, in each case on the state with nothing but the agenda changed. -/
theorem step_next {s t : State} (h : step s = .next t) :
    (∃ i ag, .phase s.phase = encode i ∧ exec i (s.withAgenda ag) = .next t) ∨
    (∃ m ag, startCommand m (s.withAgenda ag) = .next t) ∨
    (∃ a m ag, s.agenda = m :: ag ∧ comesFrom s.addrW a m ∧ hostAction a (s.withAgenda ag) = .next t) := by
  unfold step at h
  rcases fetch_cases s with ⟨ag, hf⟩ | ⟨i, ag, hi, hf⟩ | ⟨a, m, ag, hm, ha, hf⟩ | ⟨r, hf⟩ <;> rw [hf] at h
  · unfold fetchPhase at h
    split at h
    · rename_i i s' hi
      split at hi
      · rename_i j hj
        cases hi
        exact .inl ⟨i, ag, (decode_eq_some_iff _ _).1 hj, h⟩
      · cases hi
    · rename_i a s' ha; split at ha <;> cases ha
    · cases h
  · rcases hi with rfl | rfl
    · exact .inr (.inl ⟨false, ag, h⟩)
    · exact .inr (.inl ⟨true, ag, h⟩)
  · exact .inr (.inr ⟨a, m, ag, hm, ha, h⟩)
  · cases h

end Sys2Proof.Machine
end

