-- ==== Sys2Proof/Laws/PerInstr.lean ====
section
/-! SUPPORT. Laws of every instruction as syntax: it is well-formed and its code decodes to it. -/

namespace Sys2Proof

/-- The code written for an instruction reads back as it, and the instruction is well-formed. -/
def Laws.RoundTrip.Statement (i : Instr) : Prop := decode (encode i) = some i ∧ i.wellFormed = true

theorem Laws.RoundTrip.sha256 : Laws.RoundTrip.Statement .sha256 := ⟨rfl, rfl⟩
theorem Laws.RoundTrip.sha256d : Laws.RoundTrip.Statement .sha256d := ⟨rfl, rfl⟩
theorem Laws.RoundTrip.idle : Laws.RoundTrip.Statement .idle := ⟨rfl, rfl⟩
theorem Laws.RoundTrip.init : Laws.RoundTrip.Statement .init := ⟨rfl, rfl⟩
theorem Laws.RoundTrip.load : Laws.RoundTrip.Statement .load := ⟨rfl, rfl⟩
theorem Laws.RoundTrip.expand : Laws.RoundTrip.Statement .expand := ⟨rfl, rfl⟩
theorem Laws.RoundTrip.setup : Laws.RoundTrip.Statement .setup := ⟨rfl, rfl⟩
theorem Laws.RoundTrip.round : Laws.RoundTrip.Statement .round := ⟨rfl, rfl⟩
theorem Laws.RoundTrip.chain : Laws.RoundTrip.Statement .chain := ⟨rfl, rfl⟩
theorem Laws.RoundTrip.xfer : Laws.RoundTrip.Statement .xfer := ⟨rfl, rfl⟩
theorem Laws.RoundTrip.finish : Laws.RoundTrip.Statement .finish := ⟨rfl, rfl⟩

end Sys2Proof
end

