-- ==== Sys2Proof/Laws/Run.lean ====
section
/-! SUPPORT. Runs of the sequencer: how runs compose, when it is the sequencer's turn, and what the two inner loops, the 48
EXPAND steps and the 64 ROUND steps, leave behind. -/

namespace Sys2Proof.Machine

/-- A run of `n + 1` steps begins with a step. -/
theorem hostRun_succ (M : Host.Core) {s u : M.State} (h : M.step s = .next u) (n : Nat) : M.run (n + 1) s = M.run n u := by
  rw [Host.Core.run, h]

/-- Runs of any machine compose. -/
theorem hostRun_add (M : Host.Core) {n : Nat} {s t : M.State} (h : M.run n s = .next t) (m : Nat) :
    M.run (n + m) s = M.run m t := by
  induction n generalizing s with
  | zero => cases h; rw [Nat.zero_add]
  | succ n ih =>
    rw [Nat.succ_add, Host.Core.run]
    rw [Host.Core.run] at h
    revert h
    cases M.step s with
    | next u => exact ih
    | fault r => intro h; cases h
    | refused r => intro h; cases h

theorem run_succ_of_step {s u : State} (h : step s = .next u) (n : Nat) : core.run (n + 1) s = core.run n u :=
  hostRun_succ core h n

/-- Runs compose. -/
theorem run_add {n : Nat} {s t : State} (h : core.run n s = .next t) (m : Nat) : core.run (n + m) s = core.run m t :=
  hostRun_add core h m

theorem run_one_of_step {s u : State} (h : step s = .next u) : core.run 1 s = .next u := run_succ_of_step h 0

/-- It is the sequencer's turn, and stays so while VALID = 0: no outside move is pending, or the host waits for VALID. -/
def State.SeqTurn (s : State) : Prop :=
  s.agenda = [] ∨ (s.valid = false ∧ ∃ rest, s.agenda = .waitValid :: rest)

theorem fetch_of_seqTurn {s : State} (h : s.SeqTurn) : fetch s = fetchPhase s := by
  unfold fetch
  rcases h with h | ⟨hv, rest, h⟩
  · rw [h]
  · rw [h]; simp [hv]

/-- On the sequencer's turn a step is the micro-operation PHASE names. -/
theorem step_of_seqTurn {s : State} (h : s.SeqTurn) {i : Instr} (hi : Code.phase s.phase = encode i) :
    step s = exec i s := by
  unfold step
  rw [fetch_of_seqTurn h, fetchPhase, (decode_eq_some_iff _ _).2 hi]

theorem wordAt_set {w : Vector Word 64} {i k : Nat} {x : Word} (hi : i < 64) :
    wordAt (w.setIfInBounds i x) k = if k = i then x else wordAt w k := by
  unfold wordAt
  rw [Vector.getElem?_setIfInBounds]
  simp only [hi, if_true, eq_comm (a := i)]
  split <;> rfl

theorem extend_succ (n : Nat) (ws : List Word) : extend (n + 1) ws = extend n (ws ++ [nextWord ws]) := rfl

theorem length_extend (n : Nat) (ws : List Word) : (extend n ws).length = ws.length + n := by
  induction n generalizing ws with
  | zero => rfl
  | succ n ih => rw [extend_succ, ih]; simp; omega

/-- The recurrence over the register file is the recurrence over the list of words written so far. -/
theorem scheduleWord_eq {w : Vector Word 64} {ws : List Word} (h16 : 16 ≤ ws.length)
    (hw : ∀ k, k < ws.length → wordAt w k = ws.getD k 0) : scheduleWord w ws.length = nextWord ws := by
  unfold scheduleWord nextWord
  rw [hw _ (by omega), hw _ (by omega), hw _ (by omega), hw _ (by omega)]

/-- The EXPAND loop: from `T = 64 - n`, `n` steps complete the schedule and reach SETUP. -/
theorem run_expand (n : Nat) (s : State) (ws : List Word) (hs : s.SeqTurn) (hp : s.phase = phaseExpand)
    (hl : ws.length + n = 64) (h16 : 16 ≤ ws.length) (hn : 0 < n) (ht : s.t.toNat = ws.length)
    (hw : ∀ k, k < ws.length → wordAt s.w k = ws.getD k 0) :
    ∃ w, core.run n s = .next { s with w := w, t := 64, phase := phaseSetup } ∧
      ∀ k, k < 64 → wordAt w k = (extend n ws).getD k 0 := by
  induction n generalizing s ws with
  | zero => omega
  | succ n ih =>
    have hstep : step s = .next s.afterExpand := by
      rw [step_of_seqTurn hs (i := .expand) (by rw [hp]; rfl)]
      show execExpand s = _
      rw [execExpand, if_pos (by omega)]
    have hword : ∀ k, k < (ws ++ [nextWord ws]).length →
        wordAt s.afterExpand.w k = (ws ++ [nextWord ws]).getD k 0 := by
      intro k hk
      rw [List.length_append, List.length_singleton] at hk
      rw [State.afterExpand_w, wordAt_set (by omega), ht, scheduleWord_eq h16 hw]
      split
      · subst k; simp
      · rw [hw k (by omega), List.getD_append _ _ _ _ (by omega)]
    rcases Nat.eq_zero_or_pos n with rfl | hn'
    · refine ⟨s.afterExpand.w, ?_, fun k hk => ?_⟩
      · rw [run_one_of_step hstep]
        have h63 : s.t = 63#7 := by apply BitVec.eq_of_toNat_eq; rw [ht]; simp; omega
        unfold State.afterExpand
        simp [h63]
      · exact hword k (by simp; omega)
    · have ht' : s.afterExpand.t.toNat = ws.length + 1 := by
        rw [State.afterExpand_t, BitVec.toNat_add, ht]; simp; omega
      have hp' : s.afterExpand.phase = phaseExpand := by
        rw [State.afterExpand_phase, if_neg]
        intro h; rw [h] at ht; simp at ht; omega
      obtain ⟨w, hr, hw'⟩ := ih s.afterExpand (ws ++ [nextWord ws]) hs hp' (by simp; omega) (by simp; omega) hn'
        (by simpa using ht') hword
      exact ⟨w, by rw [run_succ_of_step hstep, hr]; rfl, hw'⟩

/-- The ROUND loop: from `T = 64 - n`, `n` steps run the remaining rounds and reach CHAIN. -/
theorem run_round (n : Nat) (s : State) (ws : List Word) (hs : s.SeqTurn) (hp : s.phase = phaseRound)
    (hn : 0 < n) (ht : s.t.toNat + n = 64) (hl : ws.length = 64)
    (hw : ∀ k, k < 64 → wordAt s.w k = ws.getD k 0) :
    core.run n s = .next { s with v := rounds s.v ((kRom.zip ws).drop s.t.toNat), t := 64, phase := phaseChain } := by
  induction n generalizing s with
  | zero => omega
  | succ n ih =>
    have hstep : step s = .next s.afterRound := by
      rw [step_of_seqTurn hs (i := .round) (by rw [hp]; rfl)]
      show execRound s = _
      rw [execRound, if_pos (by omega)]
    have hz : (kRom.zip ws).length = 64 := by rw [List.length_zip, hl]; rfl
    have hdrop : (kRom.zip ws).drop s.t.toNat =
        (kAt s.t.toNat, wordAt s.w s.t.toNat) :: (kRom.zip ws).drop (s.t.toNat + 1) := by
      have hk : s.t.toNat < kRom.length := by show s.t.toNat < 64; omega
      rw [List.drop_eq_getElem_cons (by omega), List.getElem_zip, hw _ (by omega), kAt,
        List.getD_eq_getElem _ _ hk, List.getD_eq_getElem _ _ (by omega)]
    have hround : rounds s.v ((kRom.zip ws).drop s.t.toNat) =
        rounds s.afterRound.v ((kRom.zip ws).drop (s.t.toNat + 1)) := by
      rw [hdrop]; rfl
    rcases Nat.eq_zero_or_pos n with rfl | hn'
    · rw [run_one_of_step hstep, hround, List.drop_of_length_le (by omega)]
      have h63 : s.t = 63#7 := by apply BitVec.eq_of_toNat_eq; simp; omega
      unfold State.afterRound rounds
      simp [h63]
    · have ht' : s.afterRound.t.toNat = s.t.toNat + 1 := by
        rw [State.afterRound_t, BitVec.toNat_add]; simp; omega
      have hp' : s.afterRound.phase = phaseRound := by
        rw [State.afterRound_phase, if_neg]
        intro h; rw [h] at ht; simp at ht; omega
      rw [run_succ_of_step hstep, ih s.afterRound hs hp' hn' (by omega) hw, ht', ← hround]
      rfl

end Sys2Proof.Machine
end

