-- ==== Sys2Proof/Tests/Slice0.lean ====
section
/-! SUPPORT. Tests of the model against values the spec prints, one step each, and for every statement with hypotheses a
named witness that meets them all. "95 s3" is section 3 of 95_test_vectors.md. -/

namespace Sys2Proof.Tests

open Sys2Proof Sys2Proof.Machine

/-! ### Helpers: small states -/

/-- The bytes of "abc" at 0x1000 (95 s8, P1). -/
def abcMem : Memory := [(0x1000, 0x61#8), (0x1001, 0x62#8), (0x1002, 0x63#8)]

/-- Idle, the descriptor of "abc" written. -/
def ready : State :=
  { State.reset with srcAddr := 0x1000, srcLen := 3, addrWritten := true, lenWritten := true, mem := abcMem }

/-- Idle, the descriptor of the empty message at the last address written. -/
def readyEmpty : State :=
  { State.reset with srcAddr := 0xFFFFFFFFFFFFFFFF, srcLen := 0, addrWritten := true, lenWritten := true }

/-- A SHA256 command on "abc" running, at the given phase and counter. -/
def running (phase : BitVec 4) (t : BitVec 7) : State := { ready with busy := true, phase := phase, t := t }

/-- A finished command: VALID = 1, `DIGEST = ser(H)` for the final `H` of "abc" (R151). -/
def finished : State :=
  { ready with
    valid := true
    digest := ser ⟨0xba7816bf, 0x8f01cfea, 0x414140de, 0x5dae2223, 0xb00361a3, 0x96177a9c, 0xb410ff61, 0xf20015ad⟩ }

/-- The second pass of a SHA256D command, at the given phase. -/
def secondPass (phase : BitVec 4) : State := { running phase 0 with mode := true, pass := true, mid := finished.digest }

/-- The 32 bytes of the digest of "abc" in memory at 0x2000, described (95 s8, P5). -/
def readyDigest : State :=
  { State.reset with
    srcAddr := 0x2000
    srcLen := 32
    addrWritten := true
    lenWritten := true
    mem := (List.range 32).map fun i => (0x2000 + i, (sha256 [0x61, 0x62, 0x63]).getD i 0) }

/-- A block with 16-bit addresses, its last two bytes of memory readable and described (95 s10). -/
def narrow : State :=
  { State.reset with
    addrW := 16
    srcAddr := 0xfffe
    srcLen := 2
    addrWritten := true
    lenWritten := true
    mem := [(0xfffe, 1#8), (0xffff, 2#8)] }

/-- Some property of the next state, false where there is none. -/
def nextIs (o : Host.Outcome State Fault Refusal) (p : State → Bool) : Bool :=
  match o with
  | .next t => p t
  | .fault _ => false
  | .refused _ => false

/-- The reason of a refusal. -/
def refusal (o : Host.Outcome State Fault Refusal) : Option Refusal :=
  match o with
  | .next _ => none
  | .fault _ => none
  | .refused r => some r

/-! ### Well-formedness: an ill-formed term for each check -/

theorem test_wf_reserved_write : (HostMove.wr 4 0).wellFormed 64 = false := by decide
theorem test_wf_status_write : (HostMove.wr 1 0).wellFormed 64 = false := by decide
theorem test_wf_reserved_command : (HostMove.wr 0 3).wellFormed 64 = false := by decide
theorem test_wf_address_too_wide : (HostMove.wr 2 0x10000000000000000).wellFormed 64 = false := by decide
theorem test_wf_length_too_wide : (HostMove.wr 3 0x2000000000000000).wellFormed 64 = false := by decide
theorem test_wf_command_read : (HostMove.rd 0).wellFormed 64 = false := by decide
theorem test_wf_reserved_read_low : (HostMove.rd 7).wellFormed 64 = false := by decide
theorem test_wf_reserved_read_high : (HostMove.rd 16).wellFormed 64 = false := by decide
theorem test_wf_accepts : (HostMove.wr 0 2).wellFormed 64 = true ∧ (HostMove.rd 15).wellFormed 64 = true := by decide
theorem test_wf_store_beyond_the_top : (HostMove.memStore 0x10000 0).wellFormed 16 = false := by decide
theorem test_wf_unmap_beyond_the_top : (HostMove.memUnmap 0x10000).wellFormed 16 = false := by decide

/-! ### Decoding: words written out from R81, R82, R84 -/

theorem test_decode_sha256 : decode (.cmd 0b000000000000000000000000_00000001#32) = some .sha256 := by decide
theorem test_decode_sha256d : decode (.cmd 0b000000000000000000000000_00000010#32) = some .sha256d := by decide
theorem test_decode_idle : decode (.phase 0b0000#4) = some .idle := by decide
theorem test_decode_init : decode (.phase 0b0001#4) = some .init := by decide
theorem test_decode_load : decode (.phase 0b0010#4) = some .load := by decide
theorem test_decode_expand : decode (.phase 0b0011#4) = some .expand := by decide
theorem test_decode_setup : decode (.phase 0b0100#4) = some .setup := by decide
theorem test_decode_round : decode (.phase 0b0101#4) = some .round := by decide
theorem test_decode_chain : decode (.phase 0b0110#4) = some .chain := by decide
theorem test_decode_xfer : decode (.phase 0b0111#4) = some .xfer := by decide
theorem test_decode_finish : decode (.phase 0b1000#4) = some .finish := by decide
/-- R83, 95 s9: the two command words joined, a bit above the operation code, and the unused PHASE codes. -/
theorem test_decode_reserved :
    decode (.cmd 3#32) = none ∧ decode (.cmd 0x101#32) = none ∧ decode (.phase 9#4) = none ∧ decode (.phase 15#4) = none := by
  decide
theorem test_table_words :
    decodeTableWord 32 2 = some .sha256d ∧ decodeTableWord 8 5 = some .round ∧ decodeTableWord 8 0x15 = none := by decide

/-! ### Primitive functions (95 s3) and ROM spot values (95 s2) -/

theorem test_rotr : rotr 1 1 = 0x80000000 ∧ rotr 0x12345678 31 = 0x2468acf0 := by decide
theorem test_shr_is_logical : shr 0x80000000 3 = 0x10000000 := by decide
theorem test_add_wraps : (0xffffffff : Word) + 0xffffffff + 0xffffffff + 0xffffffff + 0xffffffff = 0xfffffffb := by decide
theorem test_ssig0 : ssig0 0x12345678 = 0xe7fce6ee ∧ ssig0 0x80000000 = 0x11002000 := by decide
theorem test_ssig1 : ssig1 0x12345678 = 0xa1f78649 ∧ ssig1 0x80000000 = 0x00205000 := by decide
theorem test_bsig0 : bsig0 0x6a09e667 = 0xce20b47e ∧ bsig0 1 = 0x40080400 := by decide
theorem test_bsig1 : bsig1 0x12345678 = 0x3561abda ∧ bsig1 1 = 0x04200080 := by decide
theorem test_ch : ch 0xf0f0f0f0 0x12345678 0x9abcdef0 = 0x1a3c5e70 := by decide
theorem test_maj : maj 0xf0f0f0f0 0xcccccccc 0xaaaaaaaa = 0xe8e8e8e8 := by decide
theorem test_be32 : be32 0x61 0x62 0x63 0x80 = 0x61626380 := by decide
theorem test_byte32 : [0, 1, 2, 3].map (byte32 0xba7816bf) = [0xba, 0x78, 0x16, 0xbf] := by decide
theorem test_byte64 : bytes64 440 = [0, 0, 0, 0, 0, 0, 0x01, 0xb8] := by decide
theorem test_rom_spots :
    kAt 0 = 0x428a2f98 ∧ kAt 1 = 0x71374491 ∧ kAt 31 = 0x14292967 ∧ kAt 32 = 0x27b70a85 ∧ kAt 63 = 0xc67178f2 := by decide

/-! ### Padding (R101, R104, 95 s5) -/

theorem test_nblk :
    [0, 55, 56, 119, 120, 183, 2 ^ 61 - 1].map nblkOf = [1, 1, 2, 2, 3, 3, 36028797018963969] := by decide
/-- R104, L = 56: 0x80 at offset 56 of block 0, the length field in block 1. -/
theorem test_pad_56 :
    [55, 56, 57, 63, 64, 125, 126, 127].map (padByte 56 fun _ => 0x61) = [0x61, 0x80, 0, 0, 0, 0, 0x01, 0xc0] := by decide
/-- R104, L = 55: no zero byte between 0x80 and the length field. -/
theorem test_pad_55 : [54, 55, 56, 62, 63].map (padByte 55 fun _ => 0x61) = [0x61, 0x80, 0, 0x01, 0xb8] := by decide
/-- 95 s5: the longest message's length field. -/
theorem test_pad_longest :
    [0, 6, 7].map (fun i => padByte (2 ^ 61 - 1) (fun _ => 0) (64 * nblkOf (2 ^ 61 - 1) - 8 + i)) = [0xff, 0xff, 0xf8] := by
  decide

/-! ### One step of each instruction -/

/-- R173, 95 s8 P1: after the CMD write STATUS = 1, MODE = 0, PASS = 0, PHASE = INIT. -/
theorem test_sha256 :
    nextIs (step { finished with pass := true, mode := true, agenda := [.wr 0 1] })
      (fun t => t.statusWord == 1 && t.mode == false && t.pass == false && t.phase == 1 && t.agenda == []) = true := by decide
/-- R174. -/
theorem test_sha256d :
    nextIs (step { ready with agenda := [.wr 0 2] })
      (fun t => t.statusWord == 1 && t.mode == true && t.pass == false && t.phase == 1) = true := by decide
/-- R170: VALID and DIGEST stay while idle. -/
theorem test_idle : nextIs (step finished) (fun t => t.valid && t.digest == finished.digest) = true := by decide
/-- R105, its example. -/
theorem test_init :
    nextIs (step { running 1 5 with blk := 7 })
      (fun t => t.h.a == 0x6a09e667 && t.h.h == 0x5be0cd19 && t.blk == 0 && t.phase == 2) = true := by decide
/-- R106, its example. -/
theorem test_load_abc :
    nextIs (step (running 2 0))
      (fun t => (List.range 16).map (wordAt t.w) == [0x61626380, 0, 0, 0, 0, 0, 0, 0, 0, 0, 0, 0, 0, 0, 0, 0x18] &&
        t.t == 16 && t.phase == 3) = true := by decide
/-- R162: the block of pass 2. -/
theorem test_load_second_pass :
    nextIs (step (secondPass 2))
      (fun t => (List.range 16).map (wordAt t.w) ==
        [0xba7816bf, 0x8f01cfea, 0x414140de, 0x5dae2223, 0xb00361a3, 0x96177a9c, 0xb410ff61, 0xf20015ad, 0x80000000, 0, 0, 0,
          0, 0, 0, 0x100]) = true := by decide
/-- R123, its example: W[17] of "abc" from W[15] alone. -/
theorem test_expand :
    nextIs (step { running 3 17 with w := (Vector.replicate 64 0).set 15 0x18 })
      (fun t => wordAt t.w 17 == 0x000f0000 && wordAt t.w 16 == 0 && t.t == 18 && t.phase == 3) = true := by decide
/-- R123, 95 s4.1: W[63] of "abc" from W[61], W[56], W[48], W[47], and the end of the phase. -/
theorem test_expand_last :
    nextIs (step { running 3 63 with
        w := ((((Vector.replicate 64 0).set 61 0x668b2ff8).set 56 0xef57b9cd).set 48 0xfb3e89cb).set 47 0x065c43da })
      (fun t => wordAt t.w 63 == 0x12b1edeb && t.t == 64 && t.phase == 4) = true := by decide
/-- R130. -/
theorem test_setup :
    nextIs (step { running 4 64 with h := iv }) (fun t => t.v == iv && t.h == iv && t.t == 0 && t.phase == 5) = true := by
  decide
/-- R136, its example: the first round of "abc". -/
theorem test_round_first :
    nextIs (step { running 5 0 with v := iv, w := (Vector.replicate 64 0).set 0 0x61626380 })
      (fun t => t.v ==
        ⟨0x5d6aebcd, 0x6a09e667, 0xbb67ae85, 0x3c6ef372, 0xfa2a4622, 0x510e527f, 0x9b05688c, 0x1f83d9ab⟩ &&
        t.t == 1 && t.phase == 5) = true := by decide
/-- R136, 95 s4.1: the round T = 63 of "abc", and the end of the phase. -/
theorem test_round_last :
    nextIs (step { running 5 63 with
        v := ⟨0xd39a2165, 0x04d24d6c, 0xb85e2ce9, 0xb6ae8fff, 0xfb121210, 0x948d25b6, 0x961f4894, 0xb21bad3d⟩
        w := (Vector.replicate 64 0).set 63 0x12b1edeb })
      (fun t => t.v ==
        ⟨0x506e3058, 0xd39a2165, 0x04d24d6c, 0xb85e2ce9, 0x5ef50f24, 0xfb121210, 0x948d25b6, 0x961f4894⟩ &&
        t.phase == 6) = true := by decide
/-- R137, its example: the last block of SHA256. -/
theorem test_chain_last :
    nextIs (step { running 6 64 with
        h := iv
        v := ⟨0x506e3058, 0xd39a2165, 0x04d24d6c, 0xb85e2ce9, 0x5ef50f24, 0xfb121210, 0x948d25b6, 0x961f4894⟩ })
      (fun t => t.h ==
        ⟨0xba7816bf, 0x8f01cfea, 0x414140de, 0x5dae2223, 0xb00361a3, 0x96177a9c, 0xb410ff61, 0xf20015ad⟩ &&
        t.phase == 8) = true := by decide
/-- R137: another block, the end of pass 1 of SHA256D, the end of its pass 2. -/
theorem test_chain_successors :
    nextIs (step { running 6 64 with srcLen := 56 }) (fun t => t.blk == 1 && t.phase == 2) = true ∧
    nextIs (step { running 6 64 with mode := true }) (fun t => t.blk == 0 && t.phase == 7) = true ∧
    nextIs (step (secondPass 6)) (fun t => t.phase == 8) = true := by decide
/-- R161: bytes in order, STATUS and DIGEST untouched. -/
theorem test_xfer :
    nextIs (step { running 7 64 with mode := true, h := ⟨0xe3b0c442, 0, 0, 0, 0, 0, 0, 0x7852b855⟩ })
      (fun t => [0, 1, 2, 3, 28, 31].map (byteAt t.mid) == [0xe3, 0xb0, 0xc4, 0x42, 0x78, 0x55] && t.pass && t.phase == 1 &&
        t.statusWord == 1 && byteAt t.digest 0 == 0) = true := by decide
/-- R150, R151, their examples. -/
theorem test_finish :
    nextIs (step { running 8 64 with h := ⟨0xba7816bf, 0, 0, 0, 0, 0, 0, 0xf20015ad⟩ })
      (fun t => [0, 1, 2, 3, 31].map (byteAt t.digest) == [0xba, 0x78, 0x16, 0xbf, 0xad] && t.statusWord == 2 &&
        t.phase == 0) = true := by decide

/-! ### Host moves and contract violations -/

/-- R177, its example: registers 8 and 15. -/
theorem test_read_digest_words :
    nextIs (step { finished with agenda := [.rd 8] }) (fun t => t.answers == [.digestWord 0 0xba7816bf]) = true ∧
    nextIs (step { finished with agenda := [.rd 15] }) (fun t => t.answers == [.digestWord 7 0xf20015ad]) = true := by decide
/-- R37, R177: the digest is never read before it is valid. -/
theorem test_digest_not_valid :
    refusal (step { State.reset with agenda := [.rdDigest] }) = some .digestNotValid ∧
    refusal (step { running 5 0 with agenda := [.rd 8] }) = some .digestNotValid := by decide
/-- R172 conditions 2, 3, 4. -/
theorem test_illegal_starts :
    refusal (step { running 5 0 with agenda := [.wr 0 1] }) = some .commandWhileBusy ∧
    refusal (step { ready with lenWritten := false, agenda := [.wr 0 2] }) = some .unwrittenDescriptor ∧
    refusal (step { ready with srcLen := 4, agenda := [.wr 0 1] }) = some .badDescriptor := by decide
/-- 95 s10, ADDR_W = 16: a range that passes the top of the address space, and the one that ends at it. -/
theorem test_range_at_the_top :
    refusal (step { narrow with srcLen := 3, agenda := [.wr 0 1] }) = some .badDescriptor ∧
    nextIs (step { narrow with srcLen := 2, agenda := [.wr 0 1] }) (fun t => t.phase == 1 && t.busy) = true := by decide
/-- ADDR_W = 16: numbers beyond the address space (log 11). -/
theorem test_beyond_the_address_space :
    refusal (step { narrow with agenda := [.wr 2 0x10000] }) = some .addressTooLarge ∧
    refusal (step { narrow with agenda := [.memStore 0x10000 0] }) = some .addressTooLarge ∧
    nextIs (step { narrow with agenda := [.wr 2 0xffff] }) (fun t => t.srcAddr == 0xffff) = true := by decide
/-- R171, R27. -/
theorem test_illegal_writes :
    refusal (step { running 5 0 with agenda := [.wr 2 0] }) = some .writeWhileBusy ∧
    refusal (step { ready with agenda := [.wr 3 0x2000000000000000] }) = some .lengthTooLarge ∧
    refusal (step { ready with agenda := [.wr 0 0x100000001] }) = some .reservedEncoding := by decide
/-- R68: the last byte of the range and the byte after it, while BUSY = 1. -/
theorem test_message_is_borrowed :
    refusal (step { running 5 0 with agenda := [.memStore 0x1002 0] }) = some .messageModified ∧
    nextIs (step { running 5 0 with agenda := [.memStore 0x1003 7] }) (fun t => t.memRead 0x1003 == some 7) = true := by decide
/-- R235 row 4. -/
theorem test_unmap :
    refusal (step { running 5 0 with agenda := [.memUnmap 0x1000] }) = some .badDescriptor ∧
    nextIs (step { finished with agenda := [.memUnmap 0x1000] }) (fun t => t.memRead 0x1000 == none) = true := by decide
/-- R176: a failing poll of STATUS gives the sequencer the turn and leaves the host waiting. -/
theorem test_wait_polls :
    nextIs (step { running 1 0 with agenda := [.waitValid, .rdDigest] })
      (fun t => t.phase == 2 && t.agenda == [.waitValid, .rdDigest]) = true ∧
    nextIs (step { finished with agenda := [.waitValid] }) (fun t => t.answers == [.status 2] && t.agenda == []) = true := by
  decide
/-- R232: reset while BUSY = 1. -/
theorem test_reset_abandons :
    nextIs (step { running 5 9 with agenda := [.reset] })
      (fun t => t.phase == 0 && t.statusWord == 0 && t.addrWritten == false && t.mem == abcMem) = true := by decide
/-- Every row of the table, placed after reset, is what the next step runs (log 17). -/
theorem test_withFetchWord :
    nextIs (step (State.reset.withFetchWord 32 1)) (fun t => t.phase == 1 && t.mode == false) = true ∧
    nextIs (step (State.reset.withFetchWord 32 2)) (fun t => t.phase == 1 && t.mode) = true ∧
    [0, 1, 2, 3, 4, 5, 6, 7, 8].map (fun c => nextIs (step (State.reset.withFetchWord 8 c)) fun t =>
      t.phase == [0, 2, 3, 3, 5, 5, 8, 1, 0].getD c 15) = List.replicate 9 true := by decide

/-! ### Witnesses: for each statement with hypotheses, an input that meets all of them, one for each clause -/

theorem ready_canStart : ready.CanStart :=
  ⟨rfl, rfl, rfl, by decide, by decide, by unfold State.messageReadable; decide⟩

theorem ready_describes : ready.Describes [0x61, 0x62, 0x63] := ⟨rfl, by decide⟩

/-- The shortest message, at the last address: the range check's boundary. -/
theorem readyEmpty_canStart : readyEmpty.CanStart :=
  ⟨rfl, rfl, rfl, by decide, by decide, by unfold State.messageReadable; decide⟩

theorem readyEmpty_describes : readyEmpty.Describes [] := ⟨rfl, by decide⟩

/-- A running first pass of SHA256 is well-formed in each of its phases, for every T of the phase. -/
theorem running_inv (p : BitVec 4) (t : BitVec 7) (used : p.toNat ≤ 8) (busy : p ≠ 0#4) (single : p ≠ 7#4)
    (expand : p = 3#4 → 16 ≤ t.toNat ∧ t.toNat ≤ 63) (round : p = 5#4 → t.toNat ≤ 63) : (running p t).Inv where
  phase_used := used
  busy_iff := ⟨fun _ => busy, fun _ => rfl⟩
  valid_idle := nofun
  pass_mode := nofun
  expand_t := expand
  round_t := round
  blk_lt _ := (by decide : ready.blk.toNat < ready.nblk)
  xfer_pass h := absurd h single
  addr_lt := (by decide : ready.srcAddr < 2 ^ ready.addrW)
  mem_wf := ready_canStart.mem_wf
  mem_within := (by decide : ready.mem.within ready.addrW = true)
  written _ := ⟨rfl, rfl⟩
  fits _ := ready_canStart.fits
  readable _ := ready_canStart.readable

theorem starting_inv : (running 1 0).Inv := running_inv 1 0 (by decide) (by decide) (by decide) (by decide) (by decide)
theorem loading_inv : (running 2 0).Inv := running_inv 2 0 (by decide) (by decide) (by decide) (by decide) (by decide)
theorem lastRound_inv : (running 5 63).Inv := running_inv 5 63 (by decide) (by decide) (by decide) (by decide) (by decide)

theorem secondPass_inv : (secondPass 2).Inv where
  phase_used := by decide
  busy_iff := by decide
  valid_idle := nofun
  pass_mode _ := rfl
  expand_t := by decide
  round_t := by decide
  blk_lt _ := Nat.zero_lt_one
  xfer_pass := by decide
  addr_lt := by decide
  mem_wf := ready_canStart.mem_wf
  mem_within := by decide
  written _ := ⟨rfl, rfl⟩
  fits _ := ready_canStart.fits
  readable _ := ready_canStart.readable

/-- A SHA256D command about to store the intermediate digest. -/
def atXfer : State := { running 7 64 with mode := true }

theorem atXfer_inv : atXfer.Inv where
  phase_used := by decide
  busy_iff := by decide
  valid_idle := nofun
  pass_mode := nofun
  expand_t := by decide
  round_t := by decide
  blk_lt _ := Nat.zero_lt_one
  xfer_pass _ := ⟨rfl, rfl⟩
  addr_lt := by decide
  mem_wf := ready_canStart.mem_wf
  mem_within := by decide
  written _ := ⟨rfl, rfl⟩
  fits _ := ready_canStart.fits
  readable _ := ready_canStart.readable

theorem finished_inv : finished.Inv where
  phase_used := by decide
  busy_iff := by decide
  valid_idle _ := rfl
  pass_mode := nofun
  expand_t := by decide
  round_t := by decide
  blk_lt _ := Nat.zero_lt_one
  xfer_pass := by decide
  addr_lt := by decide
  mem_wf := ready_canStart.mem_wf
  mem_within := by decide
  written := nofun
  fits := nofun
  readable := nofun

theorem witness_RotateAndShiftBits :
    (0 < 31 ∧ 31 < 32 ∧ 0 < 32) ∧ (rotr 0x80000000 31).getLsbD 0 = true ∧ (shr 0x80000000 31).getLsbD 0 = true ∧
    (shr 0x80000000 31).getLsbD 1 = false := by decide

theorem witness_BigEndianInverse : 7 < 8 ∧ byte64 0x0102030405060708 0 = 1 ∧ byte64 0x0102030405060708 7 = 8 := by decide

theorem witness_SerialisationIsBigEndianAndBijective : 3 < 4 ∧ ser iv = ser iv := by decide

theorem witness_PaddedBytesAreThePaddingFunction : 63 < 64 * nblkOf ([] : List Byte).length := by decide

theorem witness_PaddingIsInjective :
    ([0x61] : List Byte).length < 2 ^ 61 ∧ ([0x61] : List Byte).length < 2 ^ 61 ∧ pad [0x61] = pad [0x61] := ⟨by decide, by decide, rfl⟩

theorem witness_Starts : ready.CanStart ∧ readyEmpty.CanStart := ⟨ready_canStart, readyEmpty_canStart⟩

/-- The three clauses; the last one by a range that wraps and by one that is not readable. -/
theorem witness_IllegalStartsAreRefused :
    (running 5 0).busy = true ∧
    (State.reset.busy = false ∧ ¬(State.reset.addrWritten = true ∧ State.reset.lenWritten = true)) ∧
    (∃ s : State, s.busy = false ∧ s.addrWritten = true ∧ s.lenWritten = true ∧ s.mem.wf = true ∧
      2 ^ s.addrW < s.srcAddr + s.srcLen.toNat) ∧
    (∃ s : State, s.busy = false ∧ s.addrWritten = true ∧ s.lenWritten = true ∧ s.mem.wf = true ∧ ¬s.messageReadable) :=
  ⟨rfl, ⟨rfl, by decide⟩,
    ⟨{ readyEmpty with srcLen := 2 }, rfl, rfl, rfl, rfl, by decide⟩,
    ⟨{ ready with srcLen := 4 }, rfl, rfl, rfl, by decide, by unfold State.messageReadable; decide⟩⟩

theorem witness_IdleChangesNothing : State.reset.phase = 0#4 ∧ State.reset.agenda = [] := ⟨rfl, rfl⟩

/-- Pass 1 with message bytes in the block, the last block of two without any, and pass 2. -/
theorem witness_LoadParsesTheBlock :
    (∃ s : State, s.pass = false ∧ s.blk.toNat < s.nblk ∧
      ∀ o, o < 64 → 64 * s.blk.toNat + o < s.srcLen.toNat → (s.memRead (s.srcAddr + (64 * s.blk.toNat + o))).isSome) ∧
    (∃ s : State, s.pass = false ∧ s.blk.toNat + 1 = s.nblk ∧ s.blk.toNat = 1 ∧
      ∀ o, o < 64 → 64 * s.blk.toNat + o < s.srcLen.toNat → (s.memRead (s.srcAddr + (64 * s.blk.toNat + o))).isSome) ∧
    (∃ s : State, s.pass = true ∧ s.blk.toNat < s.nblk) :=
  ⟨⟨running 2 0, by decide⟩, ⟨{ running 2 0 with srcLen := 56, blk := 1 }, by decide⟩, ⟨secondPass 2, by decide⟩⟩

theorem witness_LoadReadsTheDescribedMessage :
    (running 2 0).pass = false ∧ (running 2 0).Describes [0x61, 0x62, 0x63] ∧
    (running 2 0).blk.toNat < nblkOf ([0x61, 0x62, 0x63] : List Byte).length := ⟨rfl, ready_describes, by decide⟩

theorem witness_SecondPassLoadsTheIntermediateDigest : (secondPass 2).pass = true ∧ (secondPass 2).blk = 0 := ⟨rfl, rfl⟩

/-- Both ends of T's range. -/
theorem witness_ExpandComputesTheRecurrence :
    (16 ≤ (running 3 16).t.toNat ∧ (running 3 16).t.toNat ≤ 63) ∧
    (16 ≤ (running 3 63).t.toNat ∧ (running 3 63).t.toNat ≤ 63) := by decide

/-- Both ends of T's range. -/
theorem witness_RoundUpdatesTheWorkingVariables :
    (∃ (s : State) (a b c d e f g h t1 t2 : Word), s.t.toNat = 0 ∧ s.t.toNat ≤ 63 ∧ s.v = ⟨a, b, c, d, e, f, g, h⟩ ∧
      t1 = h + (e.rotateRight 6 ^^^ e.rotateRight 11 ^^^ e.rotateRight 25) + ((e &&& f) ^^^ (~~~e &&& g)) +
        kAt s.t.toNat + wordAt s.w s.t.toNat ∧
      t2 = (a.rotateRight 2 ^^^ a.rotateRight 13 ^^^ a.rotateRight 22) + ((a &&& b) ^^^ (a &&& c) ^^^ (b &&& c))) ∧
    (running 5 63).t.toNat ≤ 63 :=
  ⟨⟨running 5 0, 0, 0, 0, 0, 0, 0, 0, 0, _, _, rfl, by decide, rfl, rfl, rfl⟩, by decide⟩

/-- One more block, the last block of pass 1 of SHA256D, the last block of SHA256. -/
theorem witness_ChainAddsAndDecides :
    (∃ s : State, s.blk.toNat + 1 < s.nblk) ∧
    (∃ s : State, s.nblk ≤ s.blk.toNat + 1 ∧ s.mode = true ∧ s.pass = false) ∧
    (∃ s : State, s.nblk ≤ s.blk.toNat + 1 ∧ ¬(s.mode = true ∧ s.pass = false)) :=
  ⟨⟨{ running 6 64 with srcLen := 56 }, by decide⟩, ⟨{ running 6 64 with mode := true }, by decide⟩,
    ⟨running 6 64, by decide⟩⟩

theorem witness_PositionsOutsideTheirRangeAreRefused :
    (running 3 15).t.toNat < 16 ∧ 63 < (running 3 64).t.toNat ∧ 63 < (running 5 64).t.toNat ∧
    (∃ s : State, s.nblk ≤ s.blk.toNat) ∧ (8 < (running 9 0).phase.toNat ∧ (running 9 0).agenda = []) :=
  ⟨by decide, by decide, by decide, ⟨{ running 2 0 with blk := 1 }, by decide⟩, by decide⟩

theorem witness_StepRunsTheDecodedMicroOperation :
    (decode (.phase (running 5 0).phase) = some .round ∧ (running 5 0).agenda = []) ∧
    (∃ (s : State) (rest : List HostMove), decode (.phase s.phase) = some .finish ∧ s.agenda = .pass :: rest) ∧
    (∃ (s : State) (rest : List HostMove),
      decode (.phase s.phase) = some .idle ∧ s.agenda = .waitValid :: rest ∧ s.valid = false) :=
  ⟨⟨rfl, rfl⟩, ⟨{ running 8 0 with agenda := [.pass] }, [], rfl, rfl⟩, ⟨{ ready with agenda := [.waitValid] }, [], rfl, rfl, rfl⟩⟩

theorem witness_StepRunsTheDecodedCommand :
    (∃ (s : State) (rest : List HostMove), s.agenda = .wr 0 2 :: rest ∧ 2 = (2#32).toNat ∧ decode (.cmd 2#32) = some .sha256d) ∧
    (∃ (s : State) (rest : List HostMove), s.agenda = .wr 0 3 :: rest ∧ 3 ≠ 1 ∧ 3 ≠ 2) :=
  ⟨⟨{ ready with agenda := [.wr 0 2] }, [], rfl, rfl, rfl⟩, ⟨{ ready with agenda := [.wr 0 3] }, [], rfl, by decide, by decide⟩⟩

/-- The largest address and the largest length, idle and busy. -/
theorem witness_DescriptorWrites :
    (∃ (s : State) (a : Addr) (rest : List HostMove),
      a = 2 ^ s.addrW - 1 ∧ s.agenda = .wr 2 a :: rest ∧ a < 2 ^ s.addrW ∧ s.busy = false) ∧
    (∃ (s : State) (a : Addr) (rest : List HostMove), s.agenda = .wr 2 a :: rest ∧ a < 2 ^ s.addrW ∧ s.busy = true) ∧
    (∃ (s : State) (l : Len) (rest : List HostMove), l.toNat = 2 ^ 61 - 1 ∧ s.agenda = .wr 3 l.toNat :: rest ∧ s.busy = false) ∧
    (∃ (s : State) (l : Len) (rest : List HostMove), s.agenda = .wr 3 l.toNat :: rest ∧ s.busy = true) ∧
    (∃ (s : State) (rest : List HostMove), s.agenda = .wr 3 (2 ^ 61) :: rest ∧ s.busy = false ∧ 2 ^ 61 ≤ 2 ^ 61) :=
  ⟨⟨{ ready with agenda := [.wr 2 0xFFFFFFFFFFFFFFFF] }, 0xFFFFFFFFFFFFFFFF, [], by decide, rfl, by decide, rfl⟩,
    ⟨{ running 5 0 with agenda := [.wr 2 0] }, 0, [], rfl, by decide, rfl⟩,
    ⟨{ ready with agenda := [.wr 3 (2 ^ 61 - 1)] }, 0x1FFFFFFFFFFFFFFF, [], by decide, by decide, rfl⟩,
    ⟨{ running 5 0 with agenda := [.wr 3 0] }, 0, [], rfl, rfl⟩,
    ⟨{ ready with agenda := [.wr 3 (2 ^ 61)] }, [], rfl, rfl, by decide⟩⟩

/-- The first number beyond the address space, in each of the three moves. -/
theorem witness_NumbersBeyondTheAddressSpaceAreRefused :
    (∃ (s : State) (rest : List HostMove), 2 ^ s.addrW ≤ 0x10000 ∧ s.agenda = .wr 2 0x10000 :: rest) ∧
    (∃ (s : State) (b : Byte) (rest : List HostMove), 2 ^ s.addrW ≤ 0x10000 ∧ s.agenda = .memStore 0x10000 b :: rest) ∧
    (∃ (s : State) (rest : List HostMove), 2 ^ s.addrW ≤ 0x10000 ∧ s.agenda = .memUnmap 0x10000 :: rest) :=
  ⟨⟨narrow.withAgenda [.wr 2 0x10000], [], by decide, rfl⟩, ⟨narrow.withAgenda [.memStore 0x10000 0], 0, [], by decide, rfl⟩,
    ⟨narrow.withAgenda [.memUnmap 0x10000], [], by decide, rfl⟩⟩

/-- The largest address of a space, at two widths. -/
theorem witness_RegisterMovesDecodeExactlyWhenWellFormed : 0xFFFF < 2 ^ 16 ∧ 0xFFFFFFFFFFFFFFFF < 2 ^ 64 := by decide

theorem witness_ReservedAccessesAreRefused :
    (∃ (s : State) (rest : List HostMove), s.agenda = .wr 1 0 :: rest ∧ 1 ≠ 0 ∧ 1 ≠ 2 ∧ 1 ≠ 3) ∧
    (∃ (s : State) (w : BitVec 32) (rest : List HostMove), s.agenda = .wr 0 w.toNat :: rest ∧ w ≠ 1#32 ∧ w ≠ 2#32) ∧
    (∀ n ∈ [4, 7, 16], ∃ (s : State) (rest : List HostMove), s.agenda = .wr n 0 :: rest ∧ n ≠ 0 ∧ n ≠ 2 ∧ n ≠ 3) ∧
    (∀ n ∈ [0, 4, 7, 16], (∃ (s : State) (rest : List HostMove), s.agenda = .rd n :: rest) ∧ (n = 0 ∨ (4 ≤ n ∧ n < 8) ∨ 16 ≤ n)) :=
  ⟨⟨{ ready with agenda := [.wr 1 0] }, [], rfl, by decide, by decide, by decide⟩,
    ⟨{ ready with agenda := [.wr 0 0] }, 0, [], rfl, by decide, by decide⟩,
    fun n hn => ⟨{ ready with agenda := [.wr n 0] }, [], rfl, by revert n; decide⟩,
    fun n hn => ⟨⟨{ ready with agenda := [.rd n] }, [], rfl⟩, by revert n; decide⟩⟩

theorem witness_StatusReads : ∃ (s : State) (rest : List HostMove), s.agenda = .rd 1 :: rest :=
  ⟨{ running 5 0 with agenda := [.rd 1] }, [], rfl⟩

/-- The first and the last digest register, valid and not. -/
theorem witness_DigestReads :
    (∃ (s : State) (rest : List HostMove), s.agenda = .rdDigest :: rest ∧ s.valid = true) ∧
    (∃ (s : State) (rest : List HostMove), s.agenda = .rdDigest :: rest ∧ s.valid = false) ∧
    (∃ (s : State) (rest : List HostMove), s.agenda = .rd (8 + (0 : Fin 8).val) :: rest ∧ s.valid = true) ∧
    (∃ (s : State) (rest : List HostMove), s.agenda = .rd (8 + (7 : Fin 8).val) :: rest ∧ s.valid = false) :=
  ⟨⟨{ finished with agenda := [.rdDigest] }, [], rfl, rfl⟩, ⟨{ ready with agenda := [.rdDigest] }, [], rfl, rfl⟩,
    ⟨{ finished with agenda := [.rd 8] }, [], rfl, rfl⟩, ⟨{ ready with agenda := [.rd 15] }, [], rfl, rfl⟩⟩

theorem witness_DescriptorReads :
    (∃ (s : State) (rest : List HostMove), s.agenda = .rd 2 :: rest ∧ s.addrWritten = true) ∧
    (∃ (s : State) (rest : List HostMove), s.agenda = .rd 2 :: rest ∧ s.addrWritten = false) ∧
    (∃ (s : State) (rest : List HostMove), s.agenda = .rd 3 :: rest ∧ s.lenWritten = true) ∧
    (∃ (s : State) (rest : List HostMove), s.agenda = .rd 3 :: rest ∧ s.lenWritten = false) :=
  ⟨⟨{ ready with agenda := [.rd 2] }, [], rfl, rfl⟩, ⟨{ State.reset with agenda := [.rd 2] }, [], rfl, rfl⟩,
    ⟨{ ready with agenda := [.rd 3] }, [], rfl, rfl⟩, ⟨{ State.reset with agenda := [.rd 3] }, [], rfl, rfl⟩⟩

/-- The first and the last byte of the range, the bytes beside them, and a byte of it while BUSY = 0. -/
theorem witness_MessageIsBorrowedWhileBusy :
    (∀ a ∈ [0x1000, 0x1002], ∃ (s : State) (b : Byte) (rest : List HostMove), s.agenda = .memStore a b :: rest ∧
      a < 2 ^ s.addrW ∧ s.busy = true ∧ s.srcAddr ≤ a ∧ a < s.srcAddr + s.srcLen.toNat) ∧
    (∀ a ∈ [0xFFF, 0x1003], ∃ (s : State) (b : Byte) (rest : List HostMove), s.agenda = .memStore a b :: rest ∧
      a < 2 ^ s.addrW ∧ s.busy = true ∧ ¬(s.srcAddr ≤ a ∧ a < s.srcAddr + s.srcLen.toNat)) ∧
    (∃ (s : State) (b : Byte) (rest : List HostMove), s.agenda = .memStore 0x1000 b :: rest ∧ 0x1000 < 2 ^ s.addrW ∧
      s.busy = false) := by
  refine ⟨fun a ha => ⟨(running 5 0).withAgenda [.memStore a 0], 0, [], rfl, ?_⟩,
    fun a ha => ⟨(running 5 0).withAgenda [.memStore a 0], 0, [], rfl, ?_⟩,
    ⟨finished.withAgenda [.memStore 0x1000 0], 0, [], rfl, by decide, rfl⟩⟩
  · show a < 2 ^ 64 ∧ true = true ∧ 0x1000 ≤ a ∧ a < 0x1000 + 3
    revert a; decide
  · show a < 2 ^ 64 ∧ true = true ∧ ¬(0x1000 ≤ a ∧ a < 0x1000 + 3)
    revert a; decide

theorem witness_ResetAbandonsTheCommand : ∃ (s : State) (rest : List HostMove), s.agenda = .reset :: rest ∧ s.busy = true :=
  ⟨{ running 5 0 with agenda := [.reset] }, [], rfl, rfl⟩

theorem witness_StepKeepsWellFormedness : ∃ s t : State, s.Inv ∧ step s = .next t :=
  ⟨running 5 63, (running 5 63).afterRound, lastRound_inv, rfl⟩

theorem witness_SequencerNeverStops :
    ((running 2 0).Inv ∧ (running 2 0).agenda = []) ∧
    (∃ s : State, s.Inv ∧ ∃ rest, s.agenda = .pass :: rest) ∧ (∃ s : State, s.Inv ∧ ∃ rest, s.agenda = .waitValid :: rest) :=
  ⟨⟨loading_inv, rfl⟩, ⟨_, State.inv_withAgenda finished_inv [.pass], [], rfl⟩,
    ⟨_, State.inv_withAgenda finished_inv [.waitValid], [], rfl⟩⟩

theorem witness_StatusNeverReadsBoth : finished.Inv ∧ (running 1 0).Inv ∧ (secondPass 2).Inv :=
  ⟨finished_inv, starting_inv, secondPass_inv⟩

theorem witness_BlockNeverWritesMemory :
    (∃ s t : State, exec .finish s = .next t) ∧ (∃ s t : State, step s = .next t ∧ t.mem ≠ s.mem) :=
  ⟨⟨running 8 0, (running 8 0).afterFinish, rfl⟩,
    ⟨{ ready with agenda := [.memStore 0x2000 5] }, (ready.withAgenda []).withByte 0x2000 5, rfl, by decide⟩⟩

theorem witness_RegistersHaveOneWriter :
    (∃ s t : State, exec .xfer s = .next t ∧ Instr.xfer ≠ .finish) ∧ (∃ s t : State, exec .finish s = .next t ∧ Instr.finish ≠ .xfer) :=
  ⟨⟨running 7 0, (running 7 0).afterXfer, rfl, by decide⟩, ⟨running 8 0, (running 8 0).afterFinish, rfl, by decide⟩⟩

theorem witness_OnlyFinishSetsValid : ∃ s t : State, step s = .next t ∧ s.valid = false ∧ t.valid = true :=
  ⟨running 8 0, (running 8 0).afterFinish, rfl, rfl, rfl⟩

theorem witness_AddressWidthIsFixed : ∃ s t : State, step s = .next t ∧ s.addrW = 16 :=
  ⟨narrow, narrow, rfl, rfl⟩

theorem witness_PhasesFollowTheTransitionTable :
    (∃ s t : State, s.Inv ∧ step s = .next t ∧ t.phase ≠ s.phase) ∧
    (∃ s t : State, s.Inv ∧ step s = .next t ∧ t.phase.toNat = 1 ∧ s.phase.toNat = 7) :=
  ⟨⟨running 5 63, (running 5 63).afterRound, lastRound_inv, rfl, by decide⟩,
    ⟨atXfer, atXfer.afterXfer, atXfer_inv, rfl, rfl, rfl⟩⟩

/-- Two states that differ in data. -/
theorem witness_ControlFlowIgnoresData :
    ∃ s s' t t' : State, s.h ≠ s'.h ∧ s.phase = s'.phase ∧ s.pass = s'.pass ∧ s.mode = s'.mode ∧ s.blk = s'.blk ∧
      s.t = s'.t ∧ s.srcLen = s'.srcLen ∧ exec .chain s = .next t ∧ exec .chain s' = .next t' :=
  ⟨running 6 64, { running 6 64 with h := iv }, _, _, by decide, rfl, rfl, rfl, rfl, rfl, rfl, rfl, rfl⟩

/-- A memory with one more byte outside the range; an instruction that completes and one that is refused. -/
theorem witness_OnlyMessageBytesMatter :
    ∃ (s : State) (m : Memory), m ≠ s.mem ∧ s.mem.wf = true ∧ m.wf = true ∧
      (∀ j, j < s.srcLen.toNat → m.read (s.srcAddr + j) = s.mem.read (s.srcAddr + j)) ∧
      (∃ t, exec .load s = .next t) ∧ (∃ r, exec .sha256 s = .refused r) :=
  ⟨running 2 0, abcMem ++ [(0x2000, 9#8)], by decide, by decide, by decide, by decide, ⟨(running 2 0).afterLoad, rfl⟩, ⟨_, rfl⟩⟩

theorem witness_StatusReadsDoNotDisturb :
    ∃ (s t : State) (rest : List HostMove), step { s with agenda := .pass :: .rd 1 :: rest } = .next t :=
  ⟨running 1 0, State.afterInit { running 1 0 with agenda := [.rd 1] }, [], rfl⟩

theorem witness_BlockSpanCompresses :
    ∃ (s : State) (m : List Byte), s.phase = 2#4 ∧ s.agenda = [] ∧ s.pass = false ∧ s.Describes m ∧
      s.blk.toNat < nblkOf m.length :=
  ⟨running 2 0, [0x61, 0x62, 0x63], rfl, rfl, rfl, ready_describes, by decide⟩

/-- For the two commands' results, and for the purity of the result: two machines that describe the same bytes. -/
theorem witness_Commands :
    (ready.CanStart ∧ ready.Describes [0x61, 0x62, 0x63]) ∧ (readyEmpty.CanStart ∧ readyEmpty.Describes []) ∧
    (∃ s' : State, s'.h ≠ ready.h ∧ s'.CanStart ∧ s'.Describes [0x61, 0x62, 0x63]) :=
  ⟨⟨ready_canStart, ready_describes⟩, ⟨readyEmpty_canStart, readyEmpty_describes⟩,
    ⟨{ ready with h := iv }, by decide,
      ⟨ready_canStart.1, ready_canStart.2, ready_canStart.3, ready_canStart.4, ready_canStart.5, ready_canStart.6⟩,
      ready_describes⟩⟩

/-- The first and the last step of both ranges, for the empty message. -/
theorem witness_BusyUntilTheLastStep :
    readyEmpty.CanStart ∧ readyEmpty.Describes [] ∧ 116 < 2 + 115 * nblkOf ([] : List Byte).length ∧
    233 < 119 + 115 * nblkOf ([] : List Byte).length :=
  ⟨readyEmpty_canStart, readyEmpty_describes, by decide, by decide⟩

theorem witness_HostCallReturnsTheDigest :
    ∃ (s : State) (a : Addr) (m : List Byte), s.busy = false ∧ s.mem.wf = true ∧ m.length < 2 ^ 61 ∧
      a + m.length ≤ 2 ^ s.addrW ∧ a < 2 ^ s.addrW ∧
      (∀ j, j < m.length → s.memRead (a + j) = some (m.getD j 0)) :=
  ⟨{ State.reset with mem := abcMem }, 0x1000, [0x61, 0x62, 0x63], by decide⟩

theorem witness_CompositionLaw :
    ready.CanStart ∧ ready.Describes [0x61, 0x62, 0x63] ∧ readyDigest.CanStart ∧ readyDigest.Describes (sha256 [0x61, 0x62, 0x63]) := by
  have hd : readyDigest.Describes (sha256 [0x61, 0x62, 0x63]) := by
    refine ⟨by simp [sha256]; rfl, fun j hj => ?_⟩
    have hj' : j < 32 := by simpa [sha256] using hj
    clear hj
    show Memory.read ((List.range 32).map fun i => (0x2000 + i, (sha256 [0x61, 0x62, 0x63]).getD i 0)) (0x2000 + j) = _
    generalize sha256 [0x61, 0x62, 0x63] = d
    interval_cases j <;> rfl
  refine ⟨ready_canStart, ready_describes, ⟨rfl, rfl, rfl, by decide, rfl, fun j hj => ?_⟩, hd⟩
  have := hd.2 j (by rw [hd.1]; exact hj)
  rw [this]; rfl

end Sys2Proof.Tests
end

section
/-! SUPPORT. The word operations of R9 bit by bit, and the byte operations of R10 as arithmetic on their values. -/

namespace Sys2Proof.Machine

/-! ### Rotation and shift (R9) -/

/-- R9's rotation is the library's, in the range R9 gives its count. -/
theorem rotr_eq_rotateRight (x : Word) {n : Nat} (hn : n < 32) : rotr x n = x.rotateRight n := by
  rw [BitVec.rotateRight_eq_rotateRightAux_of_lt hn]
  rfl

theorem rotr_getLsbD (x : Word) {n i : Nat} (hn : n < 32) (hi : i < 32) :
    (rotr x n).getLsbD i = x.getLsbD ((i + n) % 32) := by
  rw [rotr_eq_rotateRight x hn, BitVec.getLsbD_rotateRight, Nat.mod_eq_of_lt hn]
  by_cases hlow : i < 32 - n
  · rw [show (i + n) % 32 = n + i by omega]
    simp [hlow]
  · rw [show (i + n) % 32 = i - (32 - n) by omega]
    simp [hlow, hi]

theorem shr_getLsbD (x : Word) (n i : Nat) :
    (shr x n).getLsbD i = if i + n < 32 then x.getLsbD (i + n) else false := by
  have hshift : (shr x n).getLsbD i = x.getLsbD (i + n) := by
    rw [shr, BitVec.getLsbD_ushiftRight, Nat.add_comm]
  split
  case isTrue => exact hshift
  case isFalse htop => rw [hshift, BitVec.getLsbD_of_ge x _ (by omega)]

/-! ### Byte order (R10) -/

/-- Appending a byte below a vector shifts the vector's value up by one byte. -/
theorem toNat_append_byte {k : Nat} (x : BitVec k) (b : Byte) : (x ++ b).toNat = x.toNat * 2 ^ 8 + b.toNat := by
  rw [BitVec.toNat_append, ← Nat.shiftLeft_add_eq_or_of_lt b.isLt, Nat.shiftLeft_eq]

theorem be32_toNat (b0 b1 b2 b3 : Byte) :
    (be32 b0 b1 b2 b3).toNat = b0.toNat * 2 ^ 24 + b1.toNat * 2 ^ 16 + b2.toNat * 2 ^ 8 + b3.toNat := by
  simp only [be32, toNat_append_byte]
  omega

theorem byte32_toNat (w : Word) (i : Nat) : (byte32 w i).toNat = w.toNat / 2 ^ (8 * (3 - i)) % 256 := by
  simp [byte32, Nat.shiftRight_eq_div_pow]

theorem byte64_toNat (v : BitVec 64) (i : Nat) : (byte64 v i).toNat = v.toNat / 2 ^ (8 * (7 - i)) % 256 := by
  simp [byte64, Nat.shiftRight_eq_div_pow]

/-- `BE32` undoes `BYTES32`: the four bytes are the digits of the word in base 256. -/
theorem be32_byte32 (w : Word) : be32 (byte32 w 0) (byte32 w 1) (byte32 w 2) (byte32 w 3) = w := by
  apply BitVec.eq_of_toNat_eq
  have hw : w.toNat < 2 ^ 32 := w.isLt
  simp only [be32_toNat, byte32_toNat]
  omega

/-- `BYTES32` undoes `BE32`, byte by byte. -/
@[simp] theorem byte32_be32 (b0 b1 b2 b3 : Byte) :
    byte32 (be32 b0 b1 b2 b3) 0 = b0 ∧ byte32 (be32 b0 b1 b2 b3) 1 = b1 ∧
    byte32 (be32 b0 b1 b2 b3) 2 = b2 ∧ byte32 (be32 b0 b1 b2 b3) 3 = b3 := by
  simp only [← BitVec.toNat_inj, byte32_toNat, be32_toNat]
  omega

/-- Settles O4: rotation bit by bit in its two ranges, the shift with zeros above the top. -/
theorem rotateAndShiftBits : Obligations.RotateAndShiftBits :=
  fun x n i _ hn hi => ⟨rotr_getLsbD x hn hi, shr_getLsbD x n i⟩

/-- Settles O5: both byte orders as digits in base 256. -/
theorem bigEndianInverse : Obligations.BigEndianInverse :=
  ⟨be32_toNat, be32_byte32, byte32_be32, fun v i _ => byte64_toNat v i⟩

end Sys2Proof.Machine
end

section
/-! SUPPORT. `ADDR_W` is the machine's parameter (R6, R35): no instruction and no outside action writes it. -/

namespace Sys2Proof.Machine

theorem startCommand_addrW {mode : Bool} {s t : State} (h : startCommand mode s = .next t) : t.addrW = s.addrW := by
  obtain ⟨-, -, -, -, rfl⟩ := startCommand_next h
  exact State.started_addrW s mode

theorem exec_addrW {i : Instr} {s t : State} (h : exec i s = .next t) : t.addrW = s.addrW := by
  have hnext : ExecNext i s t := exec_next h
  cases i with
  | sha256 | sha256d => exact startCommand_addrW h
  | load | expand =>
    obtain ⟨-, -, rfl⟩ := hnext
    simp
  | round =>
    obtain ⟨-, rfl⟩ := hnext
    simp
  | idle | init | setup | chain | xfer | finish =>
    obtain rfl := hnext
    simp

theorem hostAction_addrW {a : HostAction} {s t : State} (h : hostAction a s = .next t) : t.addrW = s.addrW := by
  have hnext : ActionNext a s t := hostAction_next h
  cases a with
  | setSrcAddr | setSrcLen | readDigest =>
    obtain ⟨-, rfl⟩ := hnext
    simp
  | read r =>
    cases r with
    | status =>
      obtain rfl := hnext
      simp
    | srcAddr | srcLen | digestWord =>
      obtain ⟨-, rfl⟩ := hnext
      simp
  | memStore | memUnmap =>
    obtain ⟨-, -, rfl⟩ := hnext
    simp
  | pollDone | reset =>
    obtain rfl := hnext
    simp

theorem step_addrW {s t : State} (h : step s = .next t) : t.addrW = s.addrW := by
  obtain ⟨i, ag, -, hexec⟩ | ⟨mode, ag, hstart⟩ | ⟨a, m, ag, -, -, hact⟩ := step_next h
  · rw [exec_addrW hexec, State.withAgenda_addrW]
  · rw [startCommand_addrW hstart, State.withAgenda_addrW]
  · rw [hostAction_addrW hact, State.withAgenda_addrW]

/-- Settles O57, by the three things a step can be: a micro-operation, a command start, an outside action. -/
theorem addressWidthIsFixed : Obligations.AddressWidthIsFixed :=
  fun _ _ h => step_addrW h

end Sys2Proof.Machine
end

section
/-! SUPPORT. What an instruction writes, as one update of the state: its frame, and the sequencer's order (R34). -/

namespace Sys2Proof.Machine

/-! ### The state after an instruction -/

/-- What instruction `i` writes when it completes. -/
def State.after (s : State) (i : Instr) : State :=
  match i with
  | .sha256 => s.started false
  | .sha256d => s.started true
  | .idle => s
  | .init => s.afterInit
  | .load => s.afterLoad
  | .expand => s.afterExpand
  | .setup => s.afterSetup
  | .round => s.afterRound
  | .chain => s.afterChain
  | .xfer => s.afterXfer
  | .finish => s.afterFinish

/-- An instruction that completes leaves exactly that state. -/
theorem exec_eq_after {i : Instr} {s t : State} (h : exec i s = .next t) : t = s.after i := by
  have hnext : ExecNext i s t := exec_next h
  cases i with
  | sha256 | sha256d =>
    obtain ⟨-, -, -, -, rfl⟩ := hnext
    rfl
  | load | expand =>
    obtain ⟨-, -, rfl⟩ := hnext
    rfl
  | round =>
    obtain ⟨-, rfl⟩ := hnext
    rfl
  | idle | init | setup | chain | xfer | finish => exact hnext

variable (s : State) (i : Instr)

@[simp] theorem State.after_srcAddr : (s.after i).srcAddr = s.srcAddr := by cases i <;> rfl
@[simp] theorem State.after_srcLen : (s.after i).srcLen = s.srcLen := by cases i <;> rfl
@[simp] theorem State.after_addrWritten : (s.after i).addrWritten = s.addrWritten := by cases i <;> rfl
@[simp] theorem State.after_lenWritten : (s.after i).lenWritten = s.lenWritten := by cases i <;> rfl
@[simp] theorem State.after_mem : (s.after i).mem = s.mem := by cases i <;> rfl
@[simp] theorem State.after_agenda : (s.after i).agenda = s.agenda := by cases i <;> rfl
@[simp] theorem State.after_answers : (s.after i).answers = s.answers := by cases i <;> rfl

variable {s i}

/-- Only FINISH writes DIGEST (R25). -/
theorem State.after_digest (h : i ≠ .finish) : (s.after i).digest = s.digest := by
  cases i with
  | finish => exact absurd rfl h
  | _ => rfl

/-- Only XFER writes MID (R24). -/
theorem State.after_mid (h : i ≠ .xfer) : (s.after i).mid = s.mid := by
  cases i with
  | xfer => exact absurd rfl h
  | _ => rfl

/-- Only FINISH sets VALID; the two commands clear it (R31). -/
theorem State.valid_of_after_valid (h : i ≠ .finish) (hv : (s.after i).valid = true) : s.valid = true := by
  cases i with
  | finish => exact absurd rfl h
  | sha256 | sha256d => exact absurd hv Bool.false_ne_true
  | _ => exact hv

/-! ### The order of the micro-operations -/

/-- The micro-operation that the sequencer performs after `i` done in `s` (R34). -/
def followedBy (i : Instr) (s : State) : Instr :=
  match i with
  | .sha256 | .sha256d | .xfer => .init
  | .idle | .finish => .idle
  | .init => .load
  | .load => .expand
  | .expand => if s.t = 63#7 then .setup else .expand
  | .setup => .round
  | .round => if s.t = 63#7 then .chain else .round
  | .chain => if s.moreBlocks then .load else if s.mode && !s.pass then .xfer else .finish

/-- After the micro-operation PHASE names, PHASE names the one that follows it. -/
theorem phase_after (hp : Code.phase s.phase = encode i) : Code.phase (s.after i).phase = encode (followedBy i s) := by
  cases i with
  | idle => exact hp
  | expand | round =>
    simp only [State.after, followedBy, State.afterExpand_phase, State.afterRound_phase]
    split <;> rfl
  | chain =>
    simp only [State.after, followedBy, State.afterChain_phase]
    split
    · rfl
    · split <;> rfl
  | _ => rfl

/-- A command start goes to INIT (R173, R174). -/
theorem startCommand_phase {mode : Bool} {t : State} (h : startCommand mode s = .next t) :
    s.busy = false ∧ t.phase = phaseInit ∧ t.valid = false := by
  obtain ⟨hbusy, -, -, -, rfl⟩ := startCommand_next h
  exact ⟨hbusy, rfl, rfl⟩

/-- Of the outside actions only the reset input touches PHASE and VALID. -/
theorem hostAction_phase_valid {a : HostAction} {t : State} (ha : a ≠ .reset) (h : hostAction a s = .next t) :
    t.phase = s.phase ∧ t.valid = s.valid := by
  have hnext : ActionNext a s t := hostAction_next h
  cases a with
  | reset => exact absurd rfl ha
  | setSrcAddr | setSrcLen | readDigest =>
    obtain ⟨-, rfl⟩ := hnext
    exact ⟨rfl, rfl⟩
  | read r =>
    cases r with
    | status =>
      obtain rfl := hnext
      exact ⟨rfl, rfl⟩
    | srcAddr | srcLen | digestWord =>
      obtain ⟨-, rfl⟩ := hnext
      exact ⟨rfl, rfl⟩
  | memStore | memUnmap =>
    obtain ⟨-, -, rfl⟩ := hnext
    exact ⟨rfl, rfl⟩
  | pollDone =>
    obtain rfl := hnext
    exact ⟨rfl, rfl⟩

/-- What a step that answers a next state does to PHASE and VALID: the micro-operation PHASE names decides both, a command
start goes to INIT and clears VALID, the reset input clears VALID, and any other outside move touches neither. -/
theorem step_phase_valid {t : State} (h : step s = .next t) :
    (∃ i ag, Code.phase s.phase = encode i ∧ t = (s.withAgenda ag).after i) ∨
    (s.busy = false ∧ t.phase = phaseInit ∧ t.valid = false) ∨
    ((∃ rest, s.agenda = .reset :: rest) ∧ t.valid = false) ∨ (t.phase = s.phase ∧ t.valid = s.valid) := by
  obtain ⟨i, ag, hp, hexec⟩ | ⟨mode, ag, hstart⟩ | ⟨a, m, ag, hm, ⟨-, -, -, hreset⟩, hact⟩ := step_next h
  · exact .inl ⟨i, ag, hp, exec_eq_after hexec⟩
  · exact .inr (.inl (startCommand_phase (s := s.withAgenda ag) hstart))
  · by_cases ha : a = .reset
    · obtain rfl := hreset ha
      subst ha
      obtain rfl : t = (s.withAgenda ag).resetBlock := hostAction_next hact
      exact .inr (.inr (.inl ⟨⟨ag, hm⟩, rfl⟩))
    · exact .inr (.inr (.inr (hostAction_phase_valid (s := s.withAgenda ag) ha hact)))

/-- The order of the micro-operations is R34's table; only IDLE and the inner loops stay where they are. -/
theorem followedBy_in_table {p q : BitVec 4} (hp : Code.phase p = encode i) (hq : Code.phase q = encode (followedBy i s))
    (hne : q ≠ p) :
    (p.toNat, q.toNat) ∈ [(0, 1), (1, 2), (2, 3), (3, 4), (4, 5), (5, 6), (6, 2), (6, 7), (6, 8), (7, 1), (8, 0)] := by
  cases i with
  | sha256 | sha256d => cases hp
  | idle => cases hp; cases hq; exact absurd rfl hne
  | expand | round =>
    simp only [followedBy] at hq
    split at hq <;> cases hp <;> cases hq
    · decide
    · exact absurd rfl hne
  | chain =>
    simp only [followedBy] at hq
    split at hq
    · cases hp; cases hq; decide
    · split at hq <;> cases hp <;> cases hq <;> decide
  | init | load | setup | xfer | finish => cases hp; cases hq; decide

/-- Settles O43: the frame of the one update an instruction makes. -/
theorem registersHaveOneWriter : Obligations.RegistersHaveOneWriter := by
  intro i s t h
  obtain rfl := exec_eq_after h
  exact ⟨fun hi => ⟨State.after_digest hi, State.valid_of_after_valid hi⟩, State.after_mid, by simp⟩

/-- Settles O44: a command start and the reset input clear VALID, no other outside action touches it, and of the
micro-operations FINISH alone sets it. -/
theorem onlyFinishSetsValid : Obligations.OnlyFinishSetsValid := by
  intro s t h hs ht
  obtain ⟨i, ag, hp, rfl⟩ | ⟨-, -, hv⟩ | ⟨-, hv⟩ | ⟨-, hv⟩ := step_phase_valid h
  · have hi : i = .finish := by
      by_contra hi
      have hv : (s.withAgenda ag).valid = true := State.valid_of_after_valid hi ht
      rw [State.withAgenda_valid, hs] at hv
      cases hv
    subst hi
    exact Code.phase.inj hp
  · rw [hv] at ht; cases ht
  · rw [hv] at ht; cases ht
  · rw [hv, hs] at ht; cases ht

/-- Settles O45: the micro-operations follow the table's order, a command starts where BUSY = 0 and so PHASE is IDLE, and
of the outside actions the reset input alone changes PHASE. -/
theorem phasesFollowTheTransitionTable : Obligations.PhasesFollowTheTransitionTable := by
  intro s t hinv h hne
  obtain ⟨i, ag, hp, rfl⟩ | ⟨hbusy, ht, -⟩ | ⟨hreset, -⟩ | ⟨ht, -⟩ := step_phase_valid h
  · exact .inl (followedBy_in_table hp (phase_after (s := s.withAgenda ag) hp) hne)
  · have hidle : s.phase = phaseIdle := by
      by_contra hne
      rw [hinv.busy_iff.2 hne] at hbusy
      cases hbusy
    rw [hidle, ht]
    exact .inl (by decide)
  · exact .inr hreset
  · exact absurd ht hne

end Sys2Proof.Machine
end

section
/-! SUPPORT. One machine with the turn at a micro-operation of a command: the position stays in range (R231), so that every
step completes, and each step takes it one nearer to IDLE (R176). -/

namespace Sys2Proof.Machine

variable {s : State} {i : Instr}

/-! ### The position is in range -/

/-- The operands of micro-operation `i` are in the range its rule gives them (R84, R102, R231). -/
def InRange (i : Instr) (s : State) : Prop :=
  match i with
  | .sha256 | .sha256d => False
  | .load | .setup | .chain => s.blk.toNat < s.nblk
  | .expand => s.blk.toNat < s.nblk ∧ 16 ≤ s.t.toNat ∧ s.t.toNat ≤ 63
  | .round => s.blk.toNat < s.nblk ∧ s.t.toNat ≤ 63
  | .idle | .init | .xfer | .finish => True

/-- The sequencer has the turn at micro-operation `i` of a command whose message can be read. -/
structure State.At (s : State) (i : Instr) : Prop where
  phase : Code.phase s.phase = encode i
  turn : s.agenda = []
  range : InRange i s
  readable : s.messageReadable

theorem State.At.step_eq (h : s.At i) : step s = exec i s := step_of_seqTurn (.inl h.turn) h.phase

/-- In range, a micro-operation completes. -/
theorem State.At.step_next (h : s.At i) : step s = .next (s.after i) := by
  rw [h.step_eq]
  have hrange := h.range
  cases i with
  | sha256 | sha256d => exact hrange.elim
  | load => exact execLoad_of hrange (State.blockReadable_of fun _ => h.readable)
  | expand => exact if_pos hrange.2
  | round => exact if_pos hrange.2
  | _ => rfl

/-- `T` counts up without wrapping while it is at most 63. -/
theorem t_succ_toNat {t : BitVec 7} (h : t.toNat ≤ 63) : (t + 1).toNat = t.toNat + 1 := by
  show (t.toNat + 1) % 2 ^ 7 = t.toNat + 1
  omega

/-- Before the last word or round `T` is below 63. -/
theorem t_lt_of_ne {t : BitVec 7} (h : t.toNat ≤ 63) (hne : t ≠ 63#7) : t.toNat < 63 := by
  have : t.toNat ≠ 63 := fun h63 => hne (BitVec.eq_of_toNat_eq h63)
  omega

/-- `BLK + 1` does not wrap where it is a block index: `NBLK` is at most `2^55 + 1` (R33, R101). -/
theorem State.nblk_le (s : State) : s.nblk ≤ 2 ^ 55 + 1 := by
  have : s.srcLen.toNat < 2 ^ 61 := s.srcLen.isLt
  unfold State.nblk nblkOf State.messageLen
  split <;> omega

theorem State.moreBlocks_iff (s : State) : s.moreBlocks = true ↔ s.blk.toNat + 1 < s.nblk := by
  simp [State.moreBlocks]

theorem State.blk_succ_toNat (h : s.moreBlocks = true) : (s.blk + 1).toNat = s.blk.toNat + 1 := by
  have := s.nblk_le
  have := s.moreBlocks_iff.1 h
  show (s.blk.toNat + 1) % 2 ^ 56 = s.blk.toNat + 1
  omega

/-- In range stays in range: the loops end at `T = 63`, and CHAIN goes to another block only where there is one. -/
theorem inRange_after (h : InRange i s) : InRange (followedBy i s) (s.after i) := by
  cases i with
  | sha256 | sha256d => exact h.elim
  | init => exact Nat.succ_pos _
  | load => exact ⟨h, (by decide : 16 ≤ (16#7).toNat ∧ (16#7).toNat ≤ 63)⟩
  | setup => exact ⟨h, Nat.zero_le _⟩
  | expand =>
    obtain ⟨hblk, h16, h63⟩ := h
    simp only [followedBy]
    split
    case isTrue => exact hblk
    case isFalse hne =>
      have ht : (s.t + 1).toNat = s.t.toNat + 1 := t_succ_toNat h63
      have hlt : s.t.toNat < 63 := t_lt_of_ne h63 hne
      exact ⟨hblk, by simp only [State.after, State.afterExpand_t]; omega⟩
  | round =>
    obtain ⟨hblk, h63⟩ := h
    simp only [followedBy]
    split
    case isTrue => exact hblk
    case isFalse hne =>
      have ht : (s.t + 1).toNat = s.t.toNat + 1 := t_succ_toNat h63
      have hlt : s.t.toNat < 63 := t_lt_of_ne h63 hne
      exact ⟨hblk, by simp only [State.after, State.afterRound_t]; omega⟩
  | chain =>
    simp only [followedBy]
    split
    case isTrue hmore =>
      show (s.afterChain).blk.toNat < s.nblk
      rw [State.afterChain_blk, if_pos hmore, State.blk_succ_toNat hmore]
      exact s.moreBlocks_iff.1 hmore
    case isFalse => split <;> trivial
  | idle | xfer | finish => trivial

/-- The micro-operation that follows has the turn next. -/
theorem State.At.next (h : s.At i) : (s.after i).At (followedBy i s) where
  phase := phase_after h.phase
  turn := by rw [State.after_agenda, h.turn]
  range := inRange_after h.range
  readable := by
    have hread := h.readable
    simpa [State.messageReadable, State.memRead] using hread

/-! ### How many steps are left -/

/-- The steps after the last CHAIN of the pass: FINISH, or XFER and the whole of pass 2, which has one block (R162). -/
def State.tailSteps (s : State) : Nat := if s.mode && !s.pass then 118 else 1

/-- The steps after CHAIN of the block at hand: 115 for each block after it, and those after the last one. -/
def State.stepsAfterBlock (s : State) : Nat := 115 * (s.nblk - (s.blk.toNat + 1)) + s.tailSteps

/-- The steps from micro-operation `i` to IDLE (R176). -/
def stepsLeft (i : Instr) (s : State) : Nat :=
  match i with
  | .sha256 | .sha256d | .idle => 0
  | .init => 1 + 115 * s.nblk + s.tailSteps
  | .load => 115 * (s.nblk - s.blk.toNat) + s.tailSteps
  | .expand => (64 - s.t.toNat) + 66 + s.stepsAfterBlock
  | .setup => 66 + s.stepsAfterBlock
  | .round => (64 - s.t.toNat) + 1 + s.stepsAfterBlock
  | .chain => 1 + s.stepsAfterBlock
  | .xfer => 118
  | .finish => 1

/-- A block takes 115 steps (R138). -/
theorem State.stepsLeft_load (h : s.blk.toNat < s.nblk) : stepsLeft .load s = 115 + s.stepsAfterBlock := by
  simp only [stepsLeft, State.stepsAfterBlock]
  omega

/-- After the last block of the pass. -/
theorem State.stepsAfterBlock_last (h : ¬s.moreBlocks = true) : s.stepsAfterBlock = s.tailSteps := by
  rw [State.moreBlocks_iff] at h
  simp only [State.stepsAfterBlock]
  omega

/-- Each step of a running command takes it one step nearer to IDLE. -/
theorem stepsLeft_after (h : InRange i s) (hi : i ≠ .idle) :
    stepsLeft (followedBy i s) (s.after i) + 1 = stepsLeft i s := by
  cases i with
  | idle => exact absurd rfl hi
  | sha256 | sha256d => exact h.elim
  | init =>
    show 115 * (s.nblk - 0) + s.tailSteps + 1 = 1 + 115 * s.nblk + s.tailSteps
    omega
  | load =>
    rw [State.stepsLeft_load h]
    show (64 - 16) + 66 + s.stepsAfterBlock + 1 = 115 + s.stepsAfterBlock
    omega
  | expand =>
    obtain ⟨-, -, h63⟩ := h
    simp only [followedBy]
    split
    case isTrue hlast =>
      have ht : s.t.toNat = 63 := congrArg BitVec.toNat hlast
      show 66 + s.stepsAfterBlock + 1 = (64 - s.t.toNat) + 66 + s.stepsAfterBlock
      omega
    case isFalse hne =>
      have hlt : s.t.toNat < 63 := t_lt_of_ne h63 hne
      show (64 - (s.t + 1).toNat) + 66 + s.stepsAfterBlock + 1 = (64 - s.t.toNat) + 66 + s.stepsAfterBlock
      rw [t_succ_toNat h63]
      omega
  | setup =>
    show (64 - 0) + 1 + s.stepsAfterBlock + 1 = 66 + s.stepsAfterBlock
    omega
  | round =>
    obtain ⟨-, h63⟩ := h
    simp only [followedBy]
    split
    case isTrue hlast =>
      have ht : s.t.toNat = 63 := congrArg BitVec.toNat hlast
      show 1 + s.stepsAfterBlock + 1 = (64 - s.t.toNat) + 1 + s.stepsAfterBlock
      omega
    case isFalse hne =>
      have hlt : s.t.toNat < 63 := t_lt_of_ne h63 hne
      show (64 - (s.t + 1).toNat) + 1 + s.stepsAfterBlock + 1 = (64 - s.t.toNat) + 1 + s.stepsAfterBlock
      rw [t_succ_toNat h63]
      omega
  | chain =>
    simp only [followedBy]
    split
    case isTrue hmore =>
      show 115 * (s.nblk - s.afterChain.blk.toNat) + s.tailSteps + 1 = 1 + s.stepsAfterBlock
      rw [State.afterChain_blk, if_pos hmore, State.blk_succ_toNat hmore, State.stepsAfterBlock]
      omega
    case isFalse hlast =>
      show _ = 1 + s.stepsAfterBlock
      rw [State.stepsAfterBlock_last hlast, State.tailSteps]
      split <;> rfl
  | xfer =>
    have hone : s.afterXfer.nblk = 1 := by simp [State.nblk, State.messageLen, nblkOf]
    simp [followedBy, State.after, stepsLeft, hone, State.tailSteps]
  | finish => rfl

end Sys2Proof.Machine
end

section
/-! SUPPORT. Two machines on the same message, in step: at the same micro-operation, and with every element that the
micro-operations to come still read the same in both (R36). So the result is a function of the message. -/

namespace Sys2Proof.Machine

variable {s s' : State} {i : Instr}

/-! ### Two machines in step -/

/-- The same pass of the same command on the same message. Addresses, address widths, the memory outside the message and
the host's side may differ. -/
structure SamePass (s s' : State) : Prop where
  pass : s.pass = s'.pass
  mode : s.mode = s'.mode
  len : s.srcLen = s'.srcLen
  valid : s.valid = s'.valid
  mid : s.pass = true → s.mid = s'.mid
  message : ∀ j, j < s.srcLen.toNat → s.memRead (s.srcAddr + j) = s'.memRead (s'.srcAddr + j)

/-- The elements that micro-operation `i` and those after it still read hold the same in both machines; every other element
is written before it is read. -/
def SameLive (i : Instr) (s s' : State) : Prop :=
  match i with
  | .sha256 | .sha256d => False
  | .init => True
  | .load => s.blk = s'.blk ∧ s.h = s'.h
  | .expand => s.blk = s'.blk ∧ s.h = s'.h ∧ s.t = s'.t ∧ ∀ k, k < s.t.toNat → wordAt s.w k = wordAt s'.w k
  | .setup => s.blk = s'.blk ∧ s.h = s'.h ∧ ∀ k, k < 64 → wordAt s.w k = wordAt s'.w k
  | .round => s.blk = s'.blk ∧ s.h = s'.h ∧ s.v = s'.v ∧ s.t = s'.t ∧ ∀ k, k < 64 → wordAt s.w k = wordAt s'.w k
  | .chain => s.blk = s'.blk ∧ s.h = s'.h ∧ s.v = s'.v
  | .xfer | .finish => s.h = s'.h
  | .idle => s.digest = s'.digest

theorem SamePass.messageLen (h : SamePass s s') : s.messageLen = s'.messageLen := by
  simp only [State.messageLen, h.pass, h.len]

theorem SamePass.moreBlocks (h : SamePass s s') (hblk : s.blk = s'.blk) : s.moreBlocks = s'.moreBlocks := by
  rw [Bool.eq_iff_iff, State.moreBlocks_iff, State.moreBlocks_iff, State.nblk, State.nblk, hblk, h.messageLen]

/-- Machines in step go on to the same micro-operation (R241). -/
theorem SamePass.followedBy_eq (h : SamePass s s') (hd : SameLive i s s') : followedBy i s' = followedBy i s := by
  cases i with
  | expand =>
    obtain ⟨-, -, ht, -⟩ := hd
    simp only [followedBy, ht]
  | round =>
    obtain ⟨-, -, -, ht, -⟩ := hd
    simp only [followedBy, ht]
  | chain => simp only [followedBy, h.moreBlocks hd.1, h.mode, h.pass]
  | _ => rfl

/-! ### What is read is the same -/

/-- The same byte of the current message, from memory or from MID (R103). -/
theorem SamePass.messageByte (h : SamePass s s') {j : Nat} (hj : j < s.messageLen) :
    s.messageByte j = s'.messageByte j := by
  unfold State.messageByte
  rw [← h.pass]
  split
  case isTrue hp => rw [h.mid hp]
  case isFalse hp =>
    rw [State.messageLen, if_neg hp] at hj
    rw [h.message j hj]

/-- `PB` reads the message below its length only (R102). -/
theorem padByte_congr {len : Nat} {m m' : Nat → Byte} (h : ∀ j, j < len → m j = m' j) (j : Nat) :
    padByte len m j = padByte len m' j := by
  unfold padByte
  split
  case isTrue hj => exact h j hj
  case isFalse => rfl

theorem SamePass.blockWord (h : SamePass s s') (hblk : s.blk = s'.blk) (k : Nat) : s.blockWord k = s'.blockWord k := by
  have hpad : padByte s.messageLen s.messageByte = padByte s'.messageLen s'.messageByte := by
    funext j
    rw [padByte_congr (fun j hj => h.messageByte hj) j, h.messageLen]
  simp only [State.blockWord, hpad, hblk]

theorem wordAt_afterLoad {k : Nat} (hk : k < 16) : wordAt s.afterLoad.w k = s.blockWord k := by
  simp [wordAt, hk, show k < 64 by omega]

theorem scheduleWord_congr {w w' : Vector Word 64} {t : Nat} (ht : 16 ≤ t)
    (h : ∀ k, k < t → wordAt w k = wordAt w' k) : scheduleWord w t = scheduleWord w' t := by
  unfold scheduleWord
  rw [h _ (by omega), h _ (by omega), h _ (by omega), h _ (by omega)]

/-- EXPAND at `T` extends the agreement of two schedules by word `T`. -/
theorem wordAt_afterExpand_congr (ht : s.t = s'.t) (h16 : 16 ≤ s.t.toNat) (h63 : s.t.toNat ≤ 63)
    (hw : ∀ k, k < s.t.toNat → wordAt s.w k = wordAt s'.w k) (k : Nat) (hk : k < s.t.toNat + 1) :
    wordAt s.afterExpand.w k = wordAt s'.afterExpand.w k := by
  rw [State.afterExpand_w, State.afterExpand_w, ← ht, wordAt_set (by omega), wordAt_set (by omega),
    scheduleWord_congr h16 hw]
  split
  · rfl
  · exact hw k (by omega)

/-! ### What is written is the same -/

/-- In either machine XFER stores the same MID, FINISH sets VALID, and nothing else of `SamePass` is written. -/
theorem SamePass.after (h : SamePass s s') (hd : SameLive i s s') : SamePass (s.after i) (s'.after i) := by
  cases i with
  | sha256 | sha256d => exact hd.elim
  | xfer =>
    have hmid : s.afterXfer.mid = s'.afterXfer.mid := congrArg ser hd
    exact { h with pass := rfl, mid := fun _ => hmid }
  | finish => exact { h with valid := rfl }
  | idle | init | load | expand | setup | round | chain => exact { h with }

/-- A micro-operation computes what it writes from live elements, so what the next ones read is the same again. -/
theorem sameLive_after (h : SamePass s s') (hr : InRange i s) (hd : SameLive i s s') :
    SameLive (followedBy i s) (s.after i) (s'.after i) := by
  cases i with
  | sha256 | sha256d => exact hd.elim
  | idle => exact hd
  | init => exact ⟨rfl, rfl⟩
  | load =>
    obtain ⟨hblk, hh⟩ := hd
    refine ⟨hblk, hh, rfl, fun k hk => ?_⟩
    show wordAt s.afterLoad.w k = wordAt s'.afterLoad.w k
    rw [wordAt_afterLoad hk, wordAt_afterLoad hk, h.blockWord hblk]
  | expand =>
    obtain ⟨-, h16, h63⟩ := hr
    obtain ⟨hblk, hh, ht, hw⟩ := hd
    have hw' := wordAt_afterExpand_congr ht h16 h63 hw
    simp only [followedBy]
    split
    case isTrue hlast => exact ⟨hblk, hh, fun k hk => hw' k (by rw [hlast]; exact hk)⟩
    case isFalse => exact ⟨hblk, hh, congrArg (· + 1) ht, fun k hk => hw' k (by rwa [← t_succ_toNat h63])⟩
  | setup =>
    obtain ⟨hblk, hh, hw⟩ := hd
    exact ⟨hblk, hh, hh, rfl, hw⟩
  | round =>
    obtain ⟨-, h63⟩ := hr
    obtain ⟨hblk, hh, hv, ht, hw⟩ := hd
    have hv' : s.afterRound.v = s'.afterRound.v := by
      rw [State.afterRound_v, State.afterRound_v, hv, hw _ (by omega), ht]
    simp only [followedBy]
    split
    · exact ⟨hblk, hh, hv'⟩
    · exact ⟨hblk, hh, hv', congrArg (· + 1) ht, hw⟩
  | chain =>
    obtain ⟨hblk, hh, hv⟩ := hd
    have hsum : s.afterChain.h = s'.afterChain.h := congrArg₂ addWords hh hv
    simp only [followedBy]
    split
    case isTrue =>
      have hblk' : s.afterChain.blk = s'.afterChain.blk := by
        rw [State.afterChain_blk, State.afterChain_blk, h.moreBlocks hblk, hblk]
      exact ⟨hblk', hsum⟩
    case isFalse => split <;> exact hsum
  | xfer => trivial
  | finish => exact congrArg ser hd

/-- Two machines in step reach IDLE after the same number of steps, with the same DIGEST and VALID. -/
theorem SamePass.run {n : Nat} (h : SamePass s s') (hd : SameLive i s s') (ha : s.At i) (ha' : s'.At i)
    (hn : stepsLeft i s = n) :
    ∃ t t', core.run n s = .next t ∧ core.run n s' = .next t' ∧ t.digest = t'.digest ∧ t.valid = t'.valid := by
  induction n generalizing s s' i with
  | zero =>
    have hi : i = .idle := by
      by_contra hi
      have := stepsLeft_after ha.range hi
      omega
    subst hi
    exact ⟨s, s', rfl, rfl, hd, h.valid⟩
  | succ n ih =>
    have hi : i ≠ .idle := by rintro rfl; cases hn
    have hleft := stepsLeft_after ha.range hi
    have hnext' : (s'.after i).At (followedBy i s) := h.followedBy_eq hd ▸ ha'.next
    rw [run_succ_of_step ha.step_next, run_succ_of_step ha'.step_next]
    exact ih (h.after hd) (sameLive_after h ha.range hd) ha.next hnext' (by omega)

/-! ### The command start -/

/-- A command word the host writes to register 0 is performed on the state without that move (R81, R82). -/
theorem step_writeCommand {w : BitVec 32} {rest : List HostMove} (ha : s.agenda = .wr 0 w.toNat :: rest)
    (hi : decodeCmd w = some i) : step s = exec i (s.withAgenda rest) := by
  simp [step, fetch, ha, fetchWrite, decodeWrite, w.isLt, hi]

/-- The pending moves play no part in whether a command may start. -/
theorem State.canStart_withAgenda (h : s.CanStart) (rest : List HostMove) : (s.withAgenda rest).CanStart := by
  cases h; constructor <;> assumption

theorem step_start_sha256 (h : s.CanStart) :
    step { s with agenda := [.wr 0 1] } = .next ((s.withAgenda []).started false) :=
  (step_writeCommand (w := 1#32) rfl rfl).trans (startCommand_of_canStart (State.canStart_withAgenda h []) false)

theorem step_start_sha256d (h : s.CanStart) :
    step { s with agenda := [.wr 0 2] } = .next ((s.withAgenda []).started true) :=
  (step_writeCommand (w := 2#32) rfl rfl).trans (startCommand_of_canStart (State.canStart_withAgenda h []) true)

/-- A started command is at INIT. -/
theorem State.CanStart.at_init (h : s.CanStart) (mode : Bool) : ((s.withAgenda []).started mode).At .init where
  phase := rfl
  turn := rfl
  range := trivial
  readable := h.readable

/-- The number of sequencer steps of a command (R176). -/
theorem stepsLeft_started {m : List Byte} (hd : s.Describes m) (mode : Bool) :
    stepsLeft .init ((s.withAgenda []).started mode) = (if mode then 119 else 2) + 115 * nblkOf m.length := by
  have hn : ((s.withAgenda []).started mode).nblk = nblkOf m.length := by
    rw [hd.1]
    rfl
  simp only [stepsLeft, hn]
  cases mode
  case false =>
    show 1 + 115 * nblkOf m.length + 1 = 2 + 115 * nblkOf m.length
    omega
  case true =>
    show 1 + 115 * nblkOf m.length + 118 = 119 + 115 * nblkOf m.length
    omega

/-- Two machines that start the same command on the same message are in step, whatever else they hold. -/
theorem samePass_started {m : List Byte} (hd : s.Describes m) (hd' : s'.Describes m) (mode : Bool) :
    SamePass ((s.withAgenda []).started mode) ((s'.withAgenda []).started mode) where
  pass := rfl
  mode := rfl
  len := BitVec.eq_of_toNat_eq (hd.1.symm.trans hd'.1)
  valid := rfl
  mid := nofun
  message j hj := by
    have hj' : j < m.length := by rw [hd.1]; exact hj
    exact (hd.2 j hj').trans (hd'.2 j hj').symm

/-- The two runs of one command, from just after its start. -/
theorem started_runs_agree {m : List Byte} (hs : s.CanStart) (hs' : s'.CanStart) (hd : s.Describes m)
    (hd' : s'.Describes m) (mode : Bool) :
    ∃ t t', core.run ((if mode then 119 else 2) + 115 * nblkOf m.length) ((s.withAgenda []).started mode) = .next t ∧
      core.run ((if mode then 119 else 2) + 115 * nblkOf m.length) ((s'.withAgenda []).started mode) = .next t' ∧
      t.digest = t'.digest ∧ t.valid = t'.valid :=
  (samePass_started hd hd' mode).run (i := .init) trivial (hs.at_init mode) (hs'.at_init mode) (stepsLeft_started hd mode)

/-- Settles O54: after the command start the two machines are in step, and so they stay until both are idle. -/
theorem resultDependsOnTheMessageOnly : Obligations.ResultDependsOnTheMessageOnly := by
  intro s s' m hs hs' hd hd'
  obtain ⟨t, t', ht, ht', hdig, hval⟩ := started_runs_agree hs hs' hd hd' false
  obtain ⟨u, u', hu, hu', hdig2, hval2⟩ := started_runs_agree hs hs' hd hd' true
  exact ⟨t, t', u, u', (run_add (run_one_of_step (step_start_sha256 hs)) _).trans ht,
    (run_add (run_one_of_step (step_start_sha256 hs')) _).trans ht', hdig, hval,
    (run_add (run_one_of_step (step_start_sha256d hs)) _).trans hu,
    (run_add (run_one_of_step (step_start_sha256d hs')) _).trans hu', hdig2, hval2⟩

end Sys2Proof.Machine
end

section
/-! SUPPORT. The word view of a digest (R25), STATUS (R31), the turn of the sequencer (R34, R214), the numbers beyond the
address space (log 11), and the two fixed facts: the ROMs (R28, R29) and the state after reset (R40). -/

namespace Sys2Proof.Machine

variable {s : State} {i : Instr}

/-- Byte `i` of word `j` stands at offset `4j + i` (R150). -/
theorem byteAt_ser (x : Words8) (j : Fin 8) {i : Nat} (hi : i < 4) :
    byteAt (ser x) (4 * j.val + i) = byte32 (x.get j) i := by
  have hlt : 4 * j.val + i < 32 := by omega
  have hword : (4 * j.val + i) / 4 = j.val := by omega
  have hbyte : (4 * j.val + i) % 4 = i := by omega
  simp [byteAt, ser, hlt, hword, hbyte]

/-- Settles O7: the four bytes of a serialised word are read back as that word. -/
theorem digestWordsAreTheHashWords : Obligations.DigestWordsAreTheHashWords := by
  intro x j
  have hbyte : ∀ i, i < 4 → byteAt (ser x) (4 * j.val + i) = byte32 (x.get j) i := fun i hi => byteAt_ser x j hi
  have h0 : byteAt (ser x) (4 * j.val) = byte32 (x.get j) 0 := hbyte 0 (by decide)
  rw [digestWord, h0, hbyte 1 (by decide), hbyte 2 (by decide), hbyte 3 (by decide), be32_byte32]

/-- BUSY and VALID are never both 1 (R231): BUSY excludes IDLE, VALID implies it. -/
theorem State.Inv.not_busy_and_valid (h : s.Inv) : ¬(s.busy = true ∧ s.valid = true) :=
  fun ⟨hbusy, hvalid⟩ => h.busy_iff.1 hbusy (h.valid_idle hvalid)

/-- Settles O41: three of the four values of the two flags are left, and BUSY says whether PHASE is IDLE. -/
theorem statusNeverReadsBoth : Obligations.StatusNeverReadsBoth := by
  intro s hinv
  have hboth := hinv.not_busy_and_valid
  have hphase : s.phase ≠ 0#4 ↔ s.busy = true := hinv.busy_iff.symm
  rw [hphase, State.statusWord]
  revert hboth
  cases s.busy <;> cases s.valid <;> decide

/-- Where the host lets a turn pass, the sequencer performs the micro-operation PHASE names (log 1). -/
theorem step_of_pass {rest : List HostMove} (ha : s.agenda = .pass :: rest) (hi : Code.phase s.phase = encode i) :
    step s = exec i (s.withAgenda rest) := by
  have hfetch : fetch s = fetchPhase (s.withAgenda rest) := by rw [fetch, ha]
  rw [step, hfetch, fetchPhase, State.withAgenda_phase, (decode_eq_some_iff _ _).2 hi]

/-- Settles O28: an empty agenda and a failing poll are the sequencer's turn, and so is a `pass`. -/
theorem stepRunsTheDecodedMicroOperation : Obligations.StepRunsTheDecodedMicroOperation := by
  intro s i hi
  have hcode : Code.phase s.phase = encode i := (decode_eq_some_iff _ _).1 hi
  exact ⟨fun ha => step_of_seqTurn (.inl ha) hcode, fun _ ha => step_of_pass ha hcode,
    fun rest ha hv => step_of_seqTurn (.inr ⟨hv, rest, ha⟩) hcode⟩

theorem decodeWrite_srcAddr_tooLarge {addrW v : Nat} (hv : 2 ^ addrW ≤ v) :
    decodeWrite addrW 2 v = .error .addressTooLarge := by
  simp [decodeWrite, Nat.not_lt.2 hv]

theorem State.isAddress_eq_false {v : Nat} (hv : 2 ^ s.addrW ≤ v) : s.isAddress v = false :=
  decide_eq_false (Nat.not_lt.2 hv)

/-- Settles O56: the decoder refuses the value, `storeByte` and `unmapByte` test the address before anything else. -/
theorem numbersBeyondTheAddressSpaceAreRefused : Obligations.NumbersBeyondTheAddressSpaceAreRefused := by
  intro s v b rest hv ha
  have hout : (s.withAgenda rest).isAddress v = false := State.isAddress_eq_false hv
  rcases ha with ha | ha | ha
  · simp [step, fetch, ha, fetchWrite, decodeWrite_srcAddr_tooLarge hv, refusalOf]
  · simp [step, fetch, ha, hostAction, storeByte, hout]
  · simp [step, fetch, ha, hostAction, unmapByte, hout]

/-- Settles O9: for each of the 72 constants the integer part `q` of the root is found below 8. -/
theorem romsHoldTheRootFractions : Obligations.RomsHoldTheRootFractions := by
  unfold Obligations.RomsHoldTheRootFractions
  exact ⟨by decide, by decide, rfl⟩

/-- Settles O37, by evaluating the state after reset. -/
theorem resetStateIsIdle : Obligations.ResetStateIsIdle :=
  ⟨rfl, rfl, rfl, rfl, rfl, rfl, rfl, rfl, rfl⟩

end Sys2Proof.Machine
end

section
/-! SUPPORT. Who writes message memory (R61, R68), and which of its bytes an instruction can see (R60, R65). -/

namespace Sys2Proof.Machine

variable {s : State} {m : Memory}

/-! ### The outside writers -/

/-- A store by an outside agent is performed on the state without that move (R68). -/
theorem step_memStore {a : Addr} {b : Byte} {rest : List HostMove} (ha : s.agenda = .memStore a b :: rest) :
    step s = storeByte a b (s.withAgenda rest) := by
  have hfetch : fetch s = .action (.memStore a b) (s.withAgenda rest) := by rw [fetch, ha]
  rw [step, hfetch]
  rfl

theorem storeByte_refused {a : Addr} (b : Byte) (ha : s.isAddress a = true) (hbusy : s.busy = true)
    (hin : s.inMessage a = true) : storeByte a b s = .refused .messageModified := by
  simp [storeByte, ha, hbusy, hin]

theorem storeByte_of {a : Addr} (b : Byte) (ha : s.isAddress a = true)
    (hfree : ¬(s.busy = true ∧ s.inMessage a = true)) : storeByte a b s = .next (s.withByte a b) := by
  rw [storeByte, ha, if_neg (by decide), if_neg (by rwa [Bool.and_eq_true])]

/-- After a store its address reads the stored byte, and every other address reads as before. -/
theorem State.memRead_withByte (s : State) (a x : Addr) (b : Byte) :
    (s.withByte a b).memRead x = if x = a then some b else s.memRead x := by
  simp only [State.memRead, State.withByte_mem, Memory.read_write, eq_comm (a := a)]

/-- Settles O35: `storeByte` refuses exactly inside the message range while BUSY = 1, and writes one byte otherwise. -/
theorem messageIsBorrowedWhileBusy : Obligations.MessageIsBorrowedWhileBusy := by
  intro s a b rest hag ha
  have haddr : (s.withAgenda rest).isAddress a = true := (State.isAddress_iff _ a).2 ha
  have hin := State.inMessage_iff (s.withAgenda rest) a
  rw [step_memStore hag]
  constructor
  · rintro ⟨hbusy, hrange⟩
    exact storeByte_refused b haddr hbusy (hin.2 hrange)
  · intro hfree
    have hnext := storeByte_of b haddr fun ⟨hbusy, hmsg⟩ => hfree ⟨hbusy, hin.1 hmsg⟩
    exact ⟨_, hnext, rfl, fun x => State.memRead_withByte (s.withAgenda rest) a x b⟩

/-- Of the outside actions only a store and an unmapping write memory. -/
theorem hostAction_mem {a : HostAction} {t : State} (h : hostAction a s = .next t) :
    t.mem = s.mem ∨ (∃ x b, a = .memStore x b) ∨ ∃ x, a = .memUnmap x := by
  have hnext : ActionNext a s t := hostAction_next h
  cases a with
  | memStore x b => exact .inr (.inl ⟨x, b, rfl⟩)
  | memUnmap x => exact .inr (.inr ⟨x, rfl⟩)
  | setSrcAddr | setSrcLen | readDigest =>
    obtain ⟨-, rfl⟩ := hnext
    exact .inl rfl
  | read r =>
    cases r with
    | status =>
      obtain rfl := hnext
      exact .inl rfl
    | srcAddr | srcLen | digestWord =>
      obtain ⟨-, rfl⟩ := hnext
      exact .inl rfl
  | pollDone | reset =>
    obtain rfl := hnext
    exact .inl rfl

/-- Memory is in the frame of the one update an instruction makes (R61). -/
theorem exec_mem {i : Instr} {t : State} (h : exec i s = .next t) : t.mem = s.mem := by
  rw [exec_eq_after h, State.after_mem]

theorem startCommand_mem {mode : Bool} {t : State} (h : startCommand mode s = .next t) : t.mem = s.mem := by
  obtain ⟨-, -, -, -, rfl⟩ := startCommand_next h
  rfl

/-- Settles O42: a step is a micro-operation or a command start, which leave memory alone, or an outside action, and of
those only the store and the unmapping the agenda asks for write it. -/
theorem blockNeverWritesMemory : Obligations.BlockNeverWritesMemory := by
  refine ⟨fun i s t h => exec_mem h, fun s t h hne => ?_⟩
  obtain ⟨i, ag, -, hexec⟩ | ⟨mode, ag, hstart⟩ | ⟨a, m, ag, hm, ⟨-, hstore, hunmap, -⟩, hact⟩ := step_next h
  · exact absurd (exec_mem hexec) hne
  · exact absurd (startCommand_mem hstart) hne
  · obtain hmem | ⟨x, b, ha⟩ | ⟨x, ha⟩ := hostAction_mem hact
    · exact absurd hmem hne
    · obtain rfl := hstore x b ha
      exact ⟨x, ag, .inl ⟨b, hm⟩⟩
    · obtain rfl := hunmap x ha
      exact ⟨x, ag, .inr hm⟩

/-! ### What an instruction sees of memory -/

/-- The state with another message memory. -/
def State.withMemory (s : State) (m : Memory) : State := { s with mem := m }

/-- The same outcome on another message memory. -/
def outcomeWithMemory (m : Memory) (o : Host.Outcome State Fault Refusal) : Host.Outcome State Fault Refusal :=
  match o with
  | .next t => .next (t.withMemory m)
  | .fault r => .fault r
  | .refused r => .refused r

/-- Two memories with the same message bytes put the machine in step with itself. -/
theorem samePass_withMemory
    (hm : ∀ j, j < s.srcLen.toNat → m.read (s.srcAddr + j) = s.mem.read (s.srcAddr + j)) :
    SamePass s (s.withMemory m) where
  pass := rfl
  mode := rfl
  len := rfl
  valid := rfl
  mid _ := rfl
  message j hj := (hm j hj).symm

section
variable (hw : s.mem.wf = true) (hw' : m.wf = true)
  (hm : ∀ j, j < s.srcLen.toNat → m.read (s.srcAddr + j) = s.mem.read (s.srcAddr + j))
include hm

/-- LOAD reads the message bytes of block `BLK`, all of them in the described range, or none in pass 2 (R66, R106). -/
theorem State.blockReadable_withMemory : (s.withMemory m).blockReadable = s.blockReadable := by
  cases hp : s.pass with
  | true => simp [State.blockReadable, State.withMemory, hp]
  | false =>
    have hlen : s.messageLen = s.srcLen.toNat := by simp [State.messageLen, hp]
    have hread : ∀ i, i < s.blockBytes → (s.withMemory m).memRead (s.srcAddr + 64 * s.blk.toNat + i) =
        s.memRead (s.srcAddr + 64 * s.blk.toNat + i) := by
      intro i hi
      rw [State.blockBytes, hlen] at hi
      rw [Nat.add_assoc]
      exact hm _ (by omega)
    rw [Bool.eq_iff_iff]
    simp only [State.blockReadable, Bool.or_eq_true, List.all_eq_true, List.mem_range]
    exact or_congr Iff.rfl (forall₂_congr fun i hi => by rw [← hread i hi]; rfl)

theorem State.afterLoad_withMemory : (s.withMemory m).afterLoad = s.afterLoad.withMemory m := by
  have hword : ∀ k, (s.withMemory m).blockWord k = s.blockWord k :=
    fun k => ((samePass_withMemory hm).blockWord rfl k).symm
  simp only [State.afterLoad, hword]
  rfl

theorem execLoad_withMemory : execLoad (s.withMemory m) = outcomeWithMemory m (execLoad s) := by
  simp only [execLoad, State.blockReadable_withMemory hm, State.afterLoad_withMemory hm,
    apply_ite (outcomeWithMemory m)]
  rfl

include hw hw'

/-- The range check looks at the described range only (R62). -/
theorem State.descriptorValid_withMemory : (s.withMemory m).descriptorValid = s.descriptorValid := by
  have hread : (s.withMemory m).messageReadable ↔ s.messageReadable :=
    forall₂_congr fun j hj => by rw [(samePass_withMemory hm).message j hj]
  rw [Bool.eq_iff_iff, State.descriptorValid_iff hw, State.descriptorValid_iff hw']
  exact and_congr Iff.rfl hread

theorem startCommand_withMemory (mode : Bool) :
    startCommand mode (s.withMemory m) = outcomeWithMemory m (startCommand mode s) := by
  simp only [startCommand, State.descriptorValid_withMemory hw hw' hm, apply_ite (outcomeWithMemory m)]
  rfl

/-- An instruction does the same on either memory: only a command start and LOAD look at it. -/
theorem exec_withMemory (i : Instr) : exec i (s.withMemory m) = outcomeWithMemory m (exec i s) := by
  cases i with
  | sha256 => exact startCommand_withMemory hw hw' hm false
  | sha256d => exact startCommand_withMemory hw hw' hm true
  | load => exact execLoad_withMemory hm
  | expand | round =>
    simp only [exec, execExpand, execRound, apply_ite (outcomeWithMemory m)]
    rfl
  | idle | init | setup | chain | xfer | finish => rfl

end

/-- Settles O47: the outcome on the other memory is the same outcome, memory apart. -/
theorem onlyMessageBytesMatter : Obligations.OnlyMessageBytesMatter := by
  intro i s m hw hw' hm
  have hexec : exec i (s.withMemory m) = outcomeWithMemory m (exec i s) := exec_withMemory hw hw' hm i
  exact ⟨fun t ht => by rw [ht] at hexec; exact hexec, fun r hr => by rw [hr] at hexec; exact hexec⟩

end Sys2Proof.Machine
end

section
/-! SUPPORT. The decoders of the three formats read both ways: what decodes, and what is refused (R80 to R84; log 11). -/

namespace Sys2Proof.Machine

variable {s : State}

/-! ### Command words and PHASE codes (R82, R84) -/

theorem decodeCmd_eq_none {w : BitVec 32} (h1 : w ≠ 1#32) (h2 : w ≠ 2#32) : decodeCmd w = none := by
  rw [decodeCmd, if_neg h1, if_neg h2]

/-- Codes 9 to 15 are unused (R84). -/
theorem decodePhase_eq_none : ∀ p : BitVec 4, 8 < p.toNat → decodePhase p = none := by decide

/-! ### Register writes (R80, R83) -/

theorem decodeWrite_srcAddr {addrW : Nat} {a : Addr} (ha : a < 2 ^ addrW) :
    decodeWrite addrW 2 a = .ok (.action (.setSrcAddr a)) := by
  simp [decodeWrite, ha]

/-- A 61-bit value is written as it stands (R27). -/
theorem decodeWrite_srcLen (addrW : Nat) (l : Len) : decodeWrite addrW 3 l.toNat = .ok (.action (.setSrcLen l)) := by
  have hl : l.toNat < 2 ^ Config.lenW := l.isLt
  simp [decodeWrite, hl]

theorem decodeWrite_srcLen_tooLarge {addrW v : Nat} (hv : 2 ^ Config.lenW ≤ v) :
    decodeWrite addrW 3 v = .error .lengthTooLarge := by
  simp [decodeWrite, Nat.not_lt.2 hv]

/-- Register 0 takes the two command words alone. -/
theorem decodeWrite_reservedCommand {addrW v : Nat} (h1 : v ≠ 1) (h2 : v ≠ 2) :
    decodeWrite addrW 0 v = .error .reservedEncoding := by
  by_cases hv : v < 2 ^ 32
  · have hword : ∀ k, k < 2 ^ 32 → v ≠ k → BitVec.ofNat 32 v ≠ BitVec.ofNat 32 k := by
      intro k hk hne h
      have hval := congrArg BitVec.toNat h
      rw [BitVec.toNat_ofNat, BitVec.toNat_ofNat, Nat.mod_eq_of_lt hv, Nat.mod_eq_of_lt hk] at hval
      exact hne hval
    have hnone : decodeCmd (BitVec.ofNat 32 v) = none :=
      decodeCmd_eq_none (hword 1 (by decide) h1) (hword 2 (by decide) h2)
    simp [decodeWrite, hnone]
  · rw [decodeWrite, if_pos rfl, if_neg hv]

theorem decodeWrite_reservedRegister {addrW n v : Nat} (h0 : n ≠ 0) (h2 : n ≠ 2) (h3 : n ≠ 3) :
    decodeWrite addrW n v = .error .reservedEncoding := by
  simp [decodeWrite, h0, h2, h3]

theorem wellFormed_wr_iff (addrW n v : Nat) : (HostMove.wr n v).wellFormed addrW = true ↔
    n = 0 ∧ (v = 1 ∨ v = 2) ∨ n = 2 ∧ v < 2 ^ addrW ∨ n = 3 ∧ v < 2 ^ Config.lenW := by
  simp [HostMove.wellFormed, or_assoc]

/-- A write decodes exactly when it is well-formed, register by register. -/
theorem decodeWrite_ok_iff (addrW n v : Nat) :
    (∃ x, decodeWrite addrW n v = .ok x) ↔ (HostMove.wr n v).wellFormed addrW = true := by
  rw [wellFormed_wr_iff]
  by_cases h0 : n = 0
  · subst h0
    by_cases hv : v = 1 ∨ v = 2
    · rcases hv with rfl | rfl
      · exact iff_of_true ⟨.command .sha256, rfl⟩ (by simp)
      · exact iff_of_true ⟨.command .sha256d, rfl⟩ (by simp)
    · obtain ⟨h1, h2⟩ := not_or.1 hv
      simp [decodeWrite_reservedCommand h1 h2, hv]
  by_cases h2 : n = 2
  · subst h2
    rcases Nat.lt_or_ge v (2 ^ addrW) with hv | hv
    · simp [decodeWrite_srcAddr hv, hv]
    · simp [decodeWrite_srcAddr_tooLarge hv, hv]
  by_cases h3 : n = 3
  · subst h3
    rcases Nat.lt_or_ge v (2 ^ Config.lenW) with hv | hv
    · have hl : (BitVec.ofNat Config.lenW v).toNat = v := Nat.mod_eq_of_lt hv
      exact iff_of_true ⟨_, hl ▸ decodeWrite_srcLen addrW (BitVec.ofNat Config.lenW v)⟩ (by simp [hv])
    · simp [decodeWrite_srcLen_tooLarge hv, hv]
  simp [decodeWrite_reservedRegister h0 h2 h3, h0, h2, h3]

/-! ### Register reads (R80, R83) -/

theorem wellFormed_rd_iff (addrW n : Nat) :
    (HostMove.rd n).wellFormed addrW = true ↔ n = 1 ∨ n = 2 ∨ n = 3 ∨ 8 ≤ n ∧ n < 16 := by
  simp [HostMove.wellFormed, or_assoc]

/-- The number a register is read under decodes to that register. -/
theorem decodeRead_of_encodeRead {r : ReadReg} {n : Nat} (h : encodeRead r = .rd n) : decodeRead n = .ok r := by
  cases r with
  | status | srcAddr | srcLen => cases h; rfl
  | digestWord j =>
    cases h
    rw [decodeRead, if_neg (by omega), if_neg (by omega), if_neg (by omega), dif_pos (by omega)]
    simp

/-- Every readable register number is the number of a register. -/
theorem exists_encodeRead {n : Nat} (h : n = 1 ∨ n = 2 ∨ n = 3 ∨ 8 ≤ n ∧ n < 16) : ∃ r, encodeRead r = .rd n := by
  rcases h with rfl | rfl | rfl | ⟨h8, h16⟩
  · exact ⟨.status, rfl⟩
  · exact ⟨.srcAddr, rfl⟩
  · exact ⟨.srcLen, rfl⟩
  · exact ⟨.digestWord ⟨n - 8, by omega⟩, congrArg HostMove.rd (Nat.add_sub_cancel' h8)⟩

theorem decodeRead_reserved {n : Nat} (h : ¬(n = 1 ∨ n = 2 ∨ n = 3 ∨ 8 ≤ n ∧ n < 16)) :
    decodeRead n = .error .reservedEncoding := by
  simp only [not_or] at h
  obtain ⟨h1, h2, h3, hword⟩ := h
  rw [decodeRead, if_neg h1, if_neg h2, if_neg h3, dif_neg hword]

theorem readable_of_decodeRead {r : ReadReg} {n : Nat} (h : decodeRead n = .ok r) :
    n = 1 ∨ n = 2 ∨ n = 3 ∨ 8 ≤ n ∧ n < 16 := by
  by_contra hn
  rw [decodeRead_reserved hn] at h
  cases h

/-- The register numbers and what they read, in either direction. -/
theorem decodeRead_eq_ok_iff (r : ReadReg) (n : Nat) : decodeRead n = .ok r ↔ encodeRead r = .rd n := by
  refine ⟨fun h => ?_, decodeRead_of_encodeRead⟩
  obtain ⟨r', hr'⟩ := exists_encodeRead (readable_of_decodeRead h)
  rw [decodeRead_of_encodeRead hr'] at h
  cases h
  exact hr'

/-- A read decodes exactly when it is well-formed. -/
theorem decodeRead_ok_iff (addrW n : Nat) :
    (∃ x, decodeRead n = .ok x) ↔ (HostMove.rd n).wellFormed addrW = true := by
  rw [wellFormed_rd_iff]
  refine ⟨fun ⟨_, hx⟩ => readable_of_decodeRead hx, fun hn => ?_⟩
  obtain ⟨r, hr⟩ := exists_encodeRead hn
  exact ⟨r, decodeRead_of_encodeRead hr⟩

/-! ### Refused moves -/

/-- A write that does not decode is refused. -/
theorem step_write_refused {n v : Nat} {rest : List HostMove} {e : DecodeError} (ha : s.agenda = .wr n v :: rest)
    (hd : decodeWrite s.addrW n v = .error e) : step s = .refused (refusalOf e) := by
  simp [step, fetch, ha, fetchWrite, hd]

/-- A read that does not decode is refused. -/
theorem step_read_refused {n : Nat} {rest : List HostMove} {e : DecodeError} (ha : s.agenda = .rd n :: rest)
    (hd : decodeRead n = .error e) : step s = .refused (refusalOf e) := by
  simp [step, fetch, ha, fetchRead, hd]

/-- With an unused code in PHASE the sequencer's turn is refused (log 10). -/
theorem step_unusedPhase (ha : s.agenda = []) (hp : 8 < s.phase.toNat) : step s = .refused .unusedPhase := by
  simp [step, fetch, ha, fetchPhase, decode, decodePhase_eq_none s.phase hp]

/-- Settles O1, by evaluating the decoders on the sample codes. -/
theorem sampleCodesDecode : Obligations.SampleCodesDecode := by
  unfold Obligations.SampleCodesDecode
  decide

/-- Settles O2: the decoders and the encoder are written from the same tables. -/
theorem decodeAndEncodeAgree : Obligations.DecodeAndEncodeAgree :=
  decode_eq_some_iff

/-- Settles O3: writes register by register, reads through the register numbers of `encodeRead`. -/
theorem registerMovesDecodeExactlyWhenWellFormed : Obligations.RegisterMovesDecodeExactlyWhenWellFormed :=
  ⟨decodeWrite_ok_iff, decodeRead_ok_iff, fun _ _ ha => decodeWrite_srcAddr ha, decodeWrite_srcLen, decodeRead_eq_ok_iff⟩

/-- Settles O27: each position fails the range test of its micro-operation, and codes 9 to 15 do not decode. -/
theorem positionsOutsideTheirRangeAreRefused : Obligations.PositionsOutsideTheirRangeAreRefused := by
  intro s
  refine ⟨fun ht => ?_, fun ht => ?_, fun hblk => if_pos hblk, fun hp ha => step_unusedPhase ha hp⟩
  · exact if_neg fun ⟨h16, h63⟩ => by omega
  · exact if_neg (Nat.not_le.2 ht)

/-- Settles O29: a command word that decodes is performed; a value that is not 1 or 2 does not decode. -/
theorem stepRunsTheDecodedCommand : Obligations.StepRunsTheDecodedCommand := by
  intro s v rest ha
  refine ⟨?_, fun h1 h2 => step_write_refused ha (decodeWrite_reservedCommand h1 h2)⟩
  rintro w i rfl hi
  exact step_writeCommand ha hi

/-- Settles O31: none of these accesses decodes. -/
theorem reservedAccessesAreRefused : Obligations.ReservedAccessesAreRefused := by
  intro s w n v rest
  refine ⟨fun ha h1 h2 => ?_, fun ha h0 h2 h3 => step_write_refused ha (decodeWrite_reservedRegister h0 h2 h3),
    fun ha hn => step_read_refused ha (decodeRead_reserved (by omega))⟩
  have hval : ∀ k : BitVec 32, w ≠ k → w.toNat ≠ k.toNat := fun k hne h => hne (BitVec.eq_of_toNat_eq h)
  exact step_write_refused ha (decodeWrite_reservedCommand (hval 1#32 h1) (hval 2#32 h2))

end Sys2Proof.Machine
end

section
/-! SUPPORT. The padded message read block by block: `pad` byte by byte is `PB` (R102, R190), and the words LOAD writes
are the words of a block of `pad` (R106, R138, R191). -/

namespace Sys2Proof.Machine

/-! ### The padding -/

/-- `NBLK` blocks hold the message, the byte 0x80 and the eight length bytes (R101). -/
theorem add_nine_le_nblkOf (len : Nat) : len + 9 ≤ 64 * nblkOf len := by
  unfold nblkOf
  omega

@[simp] theorem length_bytes64 (v : BitVec 64) : (bytes64 v).length = 8 := rfl

theorem getElem?_bytes64 (v : BitVec 64) {i : Nat} (hi : i < 8) : (bytes64 v)[i]? = some (byte64 v i) := by
  simp [bytes64, hi]

/-- `pad(m)` fills `NBLK` blocks (R190). -/
theorem length_pad (m : List Byte) : (pad m).length = 64 * nblkOf m.length := by
  have := add_nine_le_nblkOf m.length
  simp only [pad, zeroCount, List.length_append, List.length_replicate, List.length_singleton, length_bytes64]
  omega

/-- Byte `j` of `pad(m)` is `PB(j)`, in the four parts of the padding: message, marker, zeros, length (R102, R190). -/
theorem getElem?_pad (m : List Byte) {j : Nat} (hj : j < 64 * nblkOf m.length) :
    (pad m)[j]? = some (padByte m.length (fun k => m.getD k 0) j) := by
  have hfit := add_nine_le_nblkOf m.length
  have hmarked : (m ++ [0x80#8]).length = m.length + 1 := by simp
  have hzeros : (m ++ [0x80#8] ++ List.replicate (zeroCount m.length) 0x00#8).length = 64 * nblkOf m.length - 8 := by
    simp only [zeroCount, List.length_append, List.length_replicate, List.length_singleton]
    omega
  unfold pad padByte
  split
  case isTrue hmsg =>
    rw [List.getElem?_append_left (by omega), List.getElem?_append_left (by omega), List.getElem?_append_left hmsg]
    simp [hmsg]
  case isFalse hmsg =>
    split
    case isTrue hmark =>
      subst hmark
      rw [List.getElem?_append_left (by omega), List.getElem?_append_left (by omega), List.getElem?_concat_length]
    case isFalse hmark =>
      split
      case isTrue hzero =>
        rw [List.getElem?_append_left (by omega), List.getElem?_append_right (by omega),
          List.getElem?_replicate_of_lt (by rw [zeroCount]; omega)]
      case isFalse hzero =>
        rw [List.getElem?_append_right (by omega), hzeros, getElem?_bytes64 _ (by omega)]

/-! ### The words of a block -/

theorem getD_blockAt (p : List Byte) (i : Nat) {o : Nat} (ho : o < 64) :
    (blockAt p i).getD o 0 = p.getD (64 * i + o) 0 := by
  simp [blockAt, List.getD_eq_getElem?_getD, List.getElem?_take_of_lt ho]

theorem getD_blockWords (b : List Byte) {k : Nat} (hk : k < 16) :
    (blockWords b).getD k 0 =
      be32 (b.getD (4 * k) 0) (b.getD (4 * k + 1) 0) (b.getD (4 * k + 2) 0) (b.getD (4 * k + 3) 0) := by
  simp [blockWords, List.getD_eq_getElem?_getD, hk]

@[simp] theorem length_blockWords (b : List Byte) : (blockWords b).length = 16 := by
  simp [blockWords]

/-- Byte `o` of block `i` of `pad(m)` is `PB(64 * i + o)`. -/
theorem getD_blockAt_pad (m : List Byte) {i o : Nat} (hi : i < nblkOf m.length) (ho : o < 64) :
    (blockAt (pad m) i).getD o 0 = padByte m.length (fun k => m.getD k 0) (64 * i + o) := by
  rw [getD_blockAt _ _ ho, List.getD_eq_getElem?_getD, getElem?_pad m (by omega)]
  rfl

theorem length_blocks_pad (m : List Byte) : (blocks (pad m)).length = nblkOf m.length := by
  simp [blocks, length_pad]

/-- The blocks of `pad(m)` from the `i`-th on (R191). -/
theorem drop_blocks_pad (m : List Byte) {i : Nat} (hi : i < nblkOf m.length) :
    (blocks (pad m)).drop i = blockAt (pad m) i :: (blocks (pad m)).drop (i + 1) := by
  rw [List.drop_eq_getElem_cons (by rwa [length_blocks_pad])]
  simp [blocks]

end Sys2Proof.Machine
end

section
/-! SUPPORT. What the sequencer computes: LOAD, EXPAND, SETUP, ROUND and CHAIN compress one block (R138), the blocks of
a pass make the chaining state (R193), and FINISH after it makes the digest (R197). The sequencer has the turn throughout,
with no outside move pending or with the host polling VALID (R176; log 3). -/

namespace Sys2Proof.Machine

variable {s : State} {m : List Byte}

/-! ### The current message -/

/-- The current message (R100, R103) is `m`, and in pass 1, where it is read from memory, it can be read. -/
structure State.Reads (s : State) (m : List Byte) : Prop where
  length : m.length = s.messageLen
  byte : ∀ j, j < m.length → s.messageByte j = m.getD j 0
  readable : s.pass = false → s.messageReadable

theorem State.Describes.messageReadable (h : s.Describes m) : s.messageReadable := by
  obtain ⟨hlen, hbyte⟩ := h
  intro j hj
  rw [hbyte j (by omega)]
  rfl

/-- In pass 1 the current message is the described one. -/
theorem State.Describes.reads (h : s.Describes m) (hpass : s.pass = false) : s.Reads m := by
  have ⟨hlen, hbyte⟩ := h
  refine ⟨?_, fun j hj => ?_, fun _ => h.messageReadable⟩
  · simp [hlen, State.messageLen, hpass]
  · simp [State.messageByte, hpass, hbyte j hj]

theorem State.Reads.nblk (h : s.Reads m) : s.nblk = nblkOf m.length := by
  rw [h.length, State.nblk]

/-- LOAD of block `BLK` takes the words of block `BLK` of `pad(m)`. -/
theorem State.Reads.blockWord (h : s.Reads m) (hblk : s.blk.toNat < nblkOf m.length) {k : Nat} (hk : k < 16) :
    s.blockWord k = (blockWords (blockAt (pad m) s.blk.toNat)).getD k 0 := by
  have hpad : padByte s.messageLen s.messageByte = padByte m.length fun j => m.getD j 0 := by
    funext j
    rw [← h.length, padByte_congr h.byte j]
  rw [getD_blockWords _ hk, getD_blockAt_pad m hblk (by omega), getD_blockAt_pad m hblk (by omega),
    getD_blockAt_pad m hblk (by omega), getD_blockAt_pad m hblk (by omega)]
  simp only [State.blockWord, hpad, Nat.add_assoc]

/-- `u` differs from `s` at most in the registers of one pass: the position and the Engine's `H`, `V`, `W`, `T`, `BLK`. -/
def State.EngineOnly (s u : State) : Prop :=
  u = { s with phase := u.phase, blk := u.blk, t := u.t, h := u.h, v := u.v, w := u.w }

theorem State.EngineOnly.trans {u x : State} (hu : s.EngineOnly u) (hx : u.EngineOnly x) : s.EngineOnly x := by
  unfold State.EngineOnly at *
  rw [hu] at hx
  exact hx

theorem State.EngineOnly.seqTurn {u : State} (hu : s.EngineOnly u) (hs : s.SeqTurn) : u.SeqTurn := by
  rw [hu]
  exact hs

theorem State.EngineOnly.reads {u : State} (hu : s.EngineOnly u) (hm : s.Reads m) : u.Reads m := by
  rw [hu]
  exact ⟨hm.length, hm.byte, hm.readable⟩

/-! ### One block -/

/-- LOAD finds the block and its bytes. -/
theorem State.Reads.step_load (hm : s.Reads m) (hs : s.SeqTurn) (hp : s.phase = phaseLoad)
    (hblk : s.blk.toNat < nblkOf m.length) : step s = .next s.afterLoad := by
  rw [step_of_seqTurn hs (i := .load) (by rw [hp]; rfl)]
  exact execLoad_of (hm.nblk ▸ hblk) (State.blockReadable_of hm.readable)

/-- LOAD and the 48 EXPAND steps leave the Message Schedule of the block in `W`. -/
theorem run_load_expand (hs : s.SeqTurn) (hp : s.phase = phaseLoad) (hm : s.Reads m)
    (hblk : s.blk.toNat < nblkOf m.length) :
    ∃ w, core.run (1 + 48) s = .next { s with w := w, t := 64, phase := phaseSetup } ∧
      ∀ k, k < 64 → wordAt w k = (schedule (blockAt (pad m) s.blk.toNat)).getD k 0 := by
  have hloaded : ∀ k, k < (blockWords (blockAt (pad m) s.blk.toNat)).length →
      wordAt s.afterLoad.w k = (blockWords (blockAt (pad m) s.blk.toNat)).getD k 0 := by
    intro k hk
    rw [length_blockWords] at hk
    rw [wordAt_afterLoad hk, hm.blockWord hblk hk]
  obtain ⟨w, hrun, hw⟩ := run_expand 48 s.afterLoad _ hs rfl rfl (by simp) (by decide) rfl hloaded
  exact ⟨w, (run_add (run_one_of_step (hm.step_load hs hp hblk)) 48).trans hrun, hw⟩

/-- SETUP, the 64 ROUND steps and CHAIN add to `H` the working variables `x` after the rounds over the schedule `ws`. -/
theorem run_setup_round_chain {ws : List Word} {x : Words8} (hs : s.SeqTurn) (hp : s.phase = phaseSetup)
    (hl : ws.length = 64) (hw : ∀ k, k < 64 → wordAt s.w k = ws.getD k 0) (hx : rounds s.h (kRom.zip ws) = x) :
    core.run (1 + 64 + 1) s = .next { s.afterChain with h := addWords s.h x, v := x, t := 64 } := by
  subst hx
  have hsetup : step s = .next s.afterSetup := step_of_seqTurn hs (i := .setup) (by rw [hp]; rfl)
  have hrounds := run_round 64 s.afterSetup ws hs rfl (by decide) rfl hl hw
  rw [run_add ((run_add (run_one_of_step hsetup) 64).trans hrounds) 1]
  refine run_one_of_step ((step_of_seqTurn (i := .chain) ?_ rfl).trans rfl)
  exact hs

/-- The 115 steps of a block compress it into `H` and go on as CHAIN decides (R137, R138). -/
theorem run_block (hs : s.SeqTurn) (hp : s.phase = phaseLoad) (hm : s.Reads m) (hblk : s.blk.toNat < nblkOf m.length) :
    ∃ u : State, core.run 115 s = .next u ∧ u.h = compress s.h (blockAt (pad m) s.blk.toNat) ∧
      u.blk = s.afterChain.blk ∧ u.phase = s.afterChain.phase ∧ s.EngineOnly u := by
  obtain ⟨w, hrun, hw⟩ := run_load_expand hs hp hm hblk
  have hl : (schedule (blockAt (pad m) s.blk.toNat)).length = 64 := by
    rw [schedule, length_extend, length_blockWords]
  obtain ⟨x, hx⟩ : ∃ x, rounds s.h (kRom.zip (schedule (blockAt (pad m) s.blk.toNat))) = x := ⟨_, rfl⟩
  have hrest := run_setup_round_chain (s := { s with w := w, t := 64, phase := phaseSetup }) hs rfl hl hw hx
  exact ⟨_, (run_add hrun (1 + 64 + 1)).trans hrest, by rw [compress, hx], rfl, rfl, rfl⟩

/-! ### One pass -/

/-- Where the last CHAIN of the pass goes (R137). -/
def State.passEnd (s : State) : BitVec 4 := if s.mode && !s.pass then phaseXfer else phaseFinish

/-- From LOAD the `n + 1` blocks that are left are compressed into `H` one after another. -/
theorem run_blocks {n : Nat} (hs : s.SeqTurn) (hp : s.phase = phaseLoad) (hm : s.Reads m)
    (hn : s.blk.toNat + (n + 1) = nblkOf m.length) :
    ∃ u : State, core.run (115 * (n + 1)) s = .next u ∧ u.h = ((blocks (pad m)).drop s.blk.toNat).foldl compress s.h ∧
      u.phase = s.passEnd ∧ s.EngineOnly u := by
  induction n generalizing s with
  | zero =>
    obtain ⟨u, hrun, hh, -, hphase, hframe⟩ := run_block hs hp hm (by omega)
    have hlast : ¬s.moreBlocks = true := by
      rw [State.moreBlocks_iff, hm.nblk]
      omega
    rw [State.afterChain_phase, if_neg hlast] at hphase
    have hdone : (blocks (pad m)).drop (s.blk.toNat + 1) = [] :=
      List.drop_of_length_le (by rw [length_blocks_pad]; omega)
    rw [drop_blocks_pad m (by omega), hdone]
    exact ⟨u, hrun, hh, hphase, hframe⟩
  | succ n ih =>
    obtain ⟨u, hrun, hh, hblk, hphase, hframe⟩ := run_block hs hp hm (by omega)
    have hmore : s.moreBlocks = true := by
      rw [State.moreBlocks_iff, hm.nblk]
      omega
    rw [State.afterChain_phase, if_pos hmore] at hphase
    have hblk' : u.blk.toNat = s.blk.toNat + 1 := by
      rw [hblk, State.afterChain_blk, if_pos hmore, State.blk_succ_toNat hmore]
    have hend : u.passEnd = s.passEnd := by
      rw [hframe]
      rfl
    obtain ⟨x, hrest, hx, hxphase, hxframe⟩ := ih (hframe.seqTurn hs) hphase (hframe.reads hm) (by omega)
    refine ⟨x, ?_, ?_, hxphase.trans hend, hframe.trans hxframe⟩
    · rw [show 115 * (n + 1 + 1) = 115 + 115 * (n + 1) by omega, run_add hrun, hrest]
    · rw [hx, hblk', drop_blocks_pad m (i := s.blk.toNat) (by omega), List.foldl_cons, hh]

/-- From INIT a pass makes the chaining state of all blocks of `pad(m)` (R193). -/
theorem run_pass (hs : s.SeqTurn) (hp : s.phase = phaseInit) (hm : s.Reads m) :
    ∃ u : State, core.run (1 + 115 * nblkOf m.length) s = .next u ∧ u.h = chainBlocks m ∧ u.phase = s.passEnd ∧
      s.EngineOnly u := by
  have hinit : step s = .next s.afterInit := step_of_seqTurn hs (i := .init) (by rw [hp]; rfl)
  have hframe : s.EngineOnly s.afterInit := rfl
  obtain ⟨u, hrun, hh, hphase, hrest⟩ :=
    run_blocks (n := (m.length + 8) / 64) (hframe.seqTurn hs) rfl (hframe.reads hm) (Nat.zero_add _)
  exact ⟨u, (run_add (run_one_of_step hinit) _).trans hrun, hh, hphase, hframe.trans hrest⟩

/-- Where no second pass follows, a pass and FINISH deliver `sha256(m)` (R151, R197). -/
theorem run_pass_finish (hs : s.SeqTurn) (hp : s.phase = phaseInit) (hm : s.Reads m)
    (hlast : (s.mode && !s.pass) = false) :
    ∃ u : State, core.run (2 + 115 * nblkOf m.length) s = .next u.afterFinish ∧ u.afterFinish.digest.toList = sha256 m ∧
      s.EngineOnly u := by
  obtain ⟨u, hrun, hh, hphase, hframe⟩ := run_pass hs hp hm
  rw [State.passEnd, hlast] at hphase
  have hfinish : step u = .next u.afterFinish :=
    step_of_seqTurn (hframe.seqTurn hs) (i := .finish) (by rw [hphase]; rfl)
  refine ⟨u, ?_, ?_, hframe⟩
  · rw [show 2 + 115 * nblkOf m.length = 1 + 115 * nblkOf m.length + 1 by omega, run_add hrun, run_one_of_step hfinish]
  · rw [State.afterFinish_digest, hh, sha256]

end Sys2Proof.Machine
end

section
/-! SUPPORT. The host's call of R88, move by move: the descriptor, the command, the wait, the read. -/

namespace Sys2Proof.Machine

variable {s : State} {rest : List HostMove}

/-! ### The host's moves -/

theorem step_writeSrcAddr {a : Addr} (ha : s.agenda = .wr 2 a :: rest) (hidle : s.busy = false) (hlt : a < 2 ^ s.addrW) :
    step s = .next ((s.withAgenda rest).withSrcAddr a) := by
  simp [step, fetch, ha, fetchWrite, decodeWrite_srcAddr hlt, hostAction, writeSrcAddr, hidle]

theorem step_writeSrcLen {l : Len} (ha : s.agenda = .wr 3 l.toNat :: rest) (hidle : s.busy = false) :
    step s = .next ((s.withAgenda rest).withSrcLen l) := by
  simp [step, fetch, ha, fetchWrite, decodeWrite_srcLen, hostAction, writeSrcLen, hidle]

/-- The poll that finds VALID set answers STATUS and ends `WAIT VALID`. -/
theorem step_waitValid_done (ha : s.agenda = .waitValid :: rest) (hv : s.valid = true) :
    step s = .next ((s.withAgenda rest).answer (.status s.statusWord)) := by
  simp [step, fetch, ha, hv, hostAction, readReg, State.statusWord]

theorem step_readDigest (ha : s.agenda = .rdDigest :: rest) (hv : s.valid = true) :
    step s = .next ((s.withAgenda rest).answer (.digest s.digest)) := by
  simp [step, fetch, ha, hv, hostAction, readDigest]

/-! ### The call -/

/-- The state with a written descriptor. -/
def State.withDescriptor (s : State) (a : Addr) (l : Len) : State := (s.withSrcAddr a).withSrcLen l

/-- The three writes of the call start `SHA256` on the descriptor they wrote. -/
theorem run_writes_start {a : Addr} {l : Len} (ha : s.agenda = .wr 2 a :: .wr 3 l.toNat :: .wr 0 1 :: rest)
    (hlt : a < 2 ^ s.addrW) (hstart : (s.withDescriptor a l).CanStart) :
    core.run 3 s = .next (((s.withDescriptor a l).withAgenda rest).started false) := by
  have hidle : s.busy = false := hstart.idle
  have haddr : step s = .next ((s.withSrcAddr a).withAgenda (.wr 3 l.toNat :: .wr 0 1 :: rest)) :=
    step_writeSrcAddr ha hidle hlt
  have hlen : step ((s.withSrcAddr a).withAgenda (.wr 3 l.toNat :: .wr 0 1 :: rest)) =
      .next ((s.withDescriptor a l).withAgenda (.wr 0 1 :: rest)) := step_writeSrcLen rfl hidle
  have hcommand : step ((s.withDescriptor a l).withAgenda (.wr 0 1 :: rest)) =
      .next (((s.withDescriptor a l).withAgenda rest).started false) :=
    (step_writeCommand (w := 1#32) rfl rfl).trans
      (startCommand_of_canStart (State.canStart_withAgenda hstart rest) false)
  exact (run_succ_of_step haddr 2).trans ((run_succ_of_step hlen 1).trans (run_one_of_step hcommand))

/-- FINISH sets VALID and clears BUSY: STATUS reads as 2 (R151, R175). -/
theorem State.statusWord_afterFinish (s : State) : s.afterFinish.statusWord = 2#32 := by
  have hflags : (BitVec.ofBool true ++ BitVec.ofBool false).setWidth 32 = 2#32 := by decide
  exact hflags

/-- Once VALID is set, the wait ends and the digest is read. -/
theorem run_wait_read (ha : s.agenda = .waitValid :: .rdDigest :: rest) (hv : s.valid = true) :
    core.run 2 s =
      .next (((s.withAgenda rest).answer (.status s.statusWord)).answer (.digest s.digest)) :=
  (run_succ_of_step (step_waitValid_done ha hv) 1).trans (run_one_of_step (step_readDigest rfl hv))

/-- Settles O53: the writes describe `m` and start the command, the sequencer has the turn until FINISH sets VALID, and
the last two moves answer STATUS and the digest. -/
theorem hostCallReturnsTheDigest : Obligations.HostCallReturnsTheDigest := by
  intro s a m hidle hw hlen hfits hlt hread
  obtain ⟨l, hl⟩ : ∃ l : Len, l.toNat = m.length := ⟨BitVec.ofNat 61 m.length, Nat.mod_eq_of_lt hlen⟩
  have hd : (s.withDescriptor a l).Describes m := ⟨hl.symm, hread⟩
  have hstart : (s.withDescriptor a l).CanStart :=
    ⟨hidle, rfl, rfl, hl.symm ▸ hfits, hw, hd.messageReadable⟩
  have hwrites := run_writes_start (l := l) (rest := [.waitValid, .rdDigest])
    (s := s.withAgenda [.wr 2 a, .wr 3 m.length, .wr 0 1, .waitValid, .rdDigest]) (by rw [hl]; rfl) hlt
    (State.canStart_withAgenda hstart _)
  obtain ⟨u, hrun, hdigest, hframe⟩ := run_pass_finish (m := m)
    (s := ((s.withDescriptor a l).withAgenda [.waitValid, .rdDigest]).started false)
    (.inr ⟨rfl, _, rfl⟩) rfl (State.Describes.reads hd rfl) rfl
  have hagenda : u.agenda = [.waitValid, .rdDigest] := congrArg State.agenda hframe
  have hanswers : u.answers = s.answers := (congrArg State.answers hframe :)
  have hanswer := run_wait_read (s := u.afterFinish) (rest := []) hagenda rfl
  refine ⟨_, u.afterFinish.digest, (run_add ((run_add hwrites _).trans hrun) 2).trans hanswer, ?_, hdigest, rfl⟩
  simp [State.statusWord_afterFinish, hanswers]

end Sys2Proof.Machine
end

section
/-! SUPPORT. INIT and LOAD (R105, R106): which block's bytes LOAD needs, which words it writes, and the length field at the
end of the last block (R102). -/

namespace Sys2Proof.Machine

/-! ### The length field (R102) -/

/-- The two big-endian words of `BYTES64(v)` are the halves of `v` (R10). -/
theorem be32_byte64_toNat (v : BitVec 64) :
    (be32 (byte64 v 0) (byte64 v 1) (byte64 v 2) (byte64 v 3)).toNat * 2 ^ 32 +
      (be32 (byte64 v 4) (byte64 v 5) (byte64 v 6) (byte64 v 7)).toNat = v.toNat := by
  have hv : v.toNat < 2 ^ 64 := v.isLt
  simp only [be32_toNat, byte64_toNat]
  omega

/-- The padded message ends with the length field: nothing of message or marker reaches the last eight bytes. -/
theorem padByte_lengthField (len : Nat) (m : Nat → Byte) (i : Nat) :
    padByte len m (64 * nblkOf len - 8 + i) = byte64 (BitVec.ofNat 64 (8 * len)) i := by
  have hfit := add_nine_le_nblkOf len
  rw [padByte, if_neg (by omega), if_neg (by omega), if_neg (by omega), Nat.add_sub_cancel_left]

variable {s : State}

/-- The length of the current message is a 61-bit number in both passes (R27, R100). -/
theorem State.messageLen_lt (s : State) : s.messageLen < 2 ^ 61 := by
  unfold State.messageLen
  split
  · decide
  · exact s.srcLen.isLt

/-- The last two words of the last block are the 64-bit value `8 * L` (R106). -/
theorem State.blockWord_lengthField (hlast : s.blk.toNat + 1 = s.nblk) :
    (s.blockWord 14).toNat * 2 ^ 32 + (s.blockWord 15).toNat = 8 * s.messageLen := by
  have hlen := s.messageLen_lt
  have hfield : ∀ i, padByte s.messageLen s.messageByte (64 * s.blk.toNat + (56 + i)) =
      byte64 (BitVec.ofNat 64 (8 * s.messageLen)) i := by
    intro i
    rw [← padByte_lengthField s.messageLen s.messageByte i, ← State.nblk,
      show 64 * s.blk.toNat + (56 + i) = 64 * s.nblk - 8 + i by omega]
  calc
    _ = (BitVec.ofNat 64 (8 * s.messageLen)).toNat := by
      rw [← be32_byte64_toNat]
      simp only [← hfield]
      rfl
    _ = 8 * s.messageLen := by
      rw [BitVec.toNat_ofNat]
      omega

/-! ### What LOAD needs and writes (R106) -/

/-- LOAD needs the message bytes of block `BLK`, in pass 1 only (R66, R106). -/
theorem State.blockReadable_iff : s.blockReadable = true ↔
    (s.pass = false → ∀ o, o < 64 → 64 * s.blk.toNat + o < s.srcLen.toNat →
      (s.memRead (s.srcAddr + (64 * s.blk.toNat + o))).isSome) := by
  unfold State.blockReadable
  cases hpass : s.pass with
  | true => simp
  | false =>
    have hbytes : ∀ o, o < s.blockBytes ↔ o < 64 ∧ 64 * s.blk.toNat + o < s.srcLen.toNat := by
      intro o
      have hlen : s.messageLen = s.srcLen.toNat := by simp [State.messageLen, hpass]
      rw [State.blockBytes, hlen]
      omega
    simp [hbytes, Nat.add_assoc]

/-- LOAD leaves `W[16..63]` as they are. -/
theorem wordAt_afterLoad_of_le {k : Nat} (hk : 16 ≤ k) (hk' : k < 64) : wordAt s.afterLoad.w k = wordAt s.w k := by
  simp [wordAt, hk', Nat.not_lt.2 hk]

/-! ### The statements -/

/-- Settles O10: the closed formula for `NBLK` is the least `n`, and the length has 61 bits. -/
theorem blockCountIsLeast : Obligations.BlockCountIsLeast := by
  refine ⟨fun len n => ?_, State.nblk_le⟩
  unfold nblkOf
  omega

/-- Settles O17: what INIT writes, with `IV` as R28 prints it. -/
theorem initLoadsTheInitialValues : Obligations.InitLoadsTheInitialValues :=
  fun _ => rfl

/-- Settles O18: LOAD completes because the block's bytes can be read, and its words are those of the block, the length
field among them. -/
theorem loadParsesTheBlock : Obligations.LoadParsesTheBlock := by
  intro s hblk hread
  have hload : exec .load s = .next s.afterLoad := execLoad_of hblk (State.blockReadable_iff.2 hread)
  refine ⟨s.afterLoad, hload, rfl, fun k hk => ?_, fun k => wordAt_afterLoad_of_le, fun hlast => ?_⟩
  · rw [wordAt_afterLoad hk, State.blockWord]
  · rw [wordAt_afterLoad (by decide), wordAt_afterLoad (by decide), State.blockWord_lengthField hlast]

/-- Settles O19: in pass 1 the current message is the described one, and LOAD of a block takes the words of that block of
its padding. -/
theorem loadReadsTheDescribedMessage : Obligations.LoadReadsTheDescribedMessage := by
  intro s m hpass hm hblk
  have hreads : s.Reads m := hm.reads hpass
  have hload : exec .load s = .next s.afterLoad :=
    execLoad_of (hreads.nblk ▸ hblk) (State.blockReadable_of hreads.readable)
  exact ⟨s.afterLoad, hload, fun k hk => by rw [wordAt_afterLoad hk, hreads.blockWord hblk hk]⟩

end Sys2Proof.Machine
end

section
/-! SUPPORT. EXPAND (R120 to R123): the small sigmas in the library's rotation, the range of its position, the word it
writes and the words it keeps. -/

namespace Sys2Proof.Machine

/-! ### The small sigmas (R121, R122) -/

theorem ssig0_eq (x : Word) : ssig0 x = x.rotateRight 7 ^^^ x.rotateRight 18 ^^^ x >>> 3 := by
  rw [ssig0, rotr_eq_rotateRight x (by decide), rotr_eq_rotateRight x (by decide), shr]

theorem ssig1_eq (x : Word) : ssig1 x = x.rotateRight 17 ^^^ x.rotateRight 19 ^^^ x >>> 10 := by
  rw [ssig1, rotr_eq_rotateRight x (by decide), rotr_eq_rotateRight x (by decide), shr]

/-! ### What EXPAND needs and writes (R123) -/

section
variable {s : State}

theorem execExpand_of (h16 : 16 ≤ s.t.toNat) (h63 : s.t.toNat ≤ 63) : execExpand s = .next s.afterExpand :=
  if_pos ⟨h16, h63⟩

theorem State.afterExpand_phase_eq : s.afterExpand.phase = if s.t.toNat = 63 then 4#4 else 3#4 := by
  have hlast : s.t = 63#7 ↔ s.t.toNat = 63 := BitVec.toNat_inj.symm
  rw [State.afterExpand_phase]
  simp only [hlast]

theorem wordAt_afterExpand_same (h63 : s.t.toNat ≤ 63) :
    wordAt s.afterExpand.w s.t.toNat = scheduleWord s.w s.t.toNat := by
  rw [State.afterExpand_w, wordAt_set (by omega), if_pos rfl]

theorem wordAt_afterExpand_of_ne (h63 : s.t.toNat ≤ 63) {k : Nat} (hk : k ≠ s.t.toNat) :
    wordAt s.afterExpand.w k = wordAt s.w k := by
  rw [State.afterExpand_w, wordAt_set (by omega), if_neg hk]

end

/-- Settles O21: in its range EXPAND completes; it writes `scheduleWord` at `T`, and `T = 63` decides the next phase. -/
theorem expandComputesTheRecurrence : Obligations.ExpandComputesTheRecurrence := by
  intro s h16 h63
  have hexpand : exec .expand s = .next s.afterExpand := execExpand_of h16 h63
  refine ⟨s.afterExpand, hexpand, ?_, fun k _ hne => wordAt_afterExpand_of_ne h63 hne, ?_⟩
  · rw [← State.afterExpand_phase_eq]
    rfl
  · rintro _ _ _ _ rfl rfl rfl rfl
    rw [wordAt_afterExpand_same h63, scheduleWord, ssig1_eq, ssig0_eq]

end Sys2Proof.Machine
end

section
/-! SUPPORT. The compression datapath (R130 to R138): choice and majority bit by bit, the big sigmas in the library's
rotation, and what ROUND and CHAIN write. -/

namespace Sys2Proof.Machine

/-! ### Choice and majority (R134, R135) -/

theorem choice_bit : ∀ x y z : Bool, ((x && y) ^^ (!x && z)) = if x then y else z := by decide

theorem majority_bit : ∀ x y z : Bool,
    ((x && y) ^^ (x && z) ^^ (y && z)) = decide (2 ≤ x.toNat + y.toNat + z.toNat) := by decide

/-- The complement has no bit beyond the word, and neither has `z`. -/
theorem getLsbD_not_and (x z : Word) (i : Nat) : (~~~x &&& z).getLsbD i = (!x.getLsbD i && z.getLsbD i) := by
  rw [BitVec.getLsbD_and, BitVec.getLsbD_not]
  by_cases hi : i < 32
  · simp [hi]
  · simp [BitVec.getLsbD_of_ge z i (Nat.not_lt.1 hi)]

theorem ch_getLsbD (x y z : Word) (i : Nat) :
    (ch x y z).getLsbD i = if x.getLsbD i then y.getLsbD i else z.getLsbD i := by
  rw [ch, BitVec.getLsbD_xor, BitVec.getLsbD_and, getLsbD_not_and, choice_bit]

theorem maj_getLsbD (x y z : Word) (i : Nat) :
    (maj x y z).getLsbD i = decide (2 ≤ (x.getLsbD i).toNat + (y.getLsbD i).toNat + (z.getLsbD i).toNat) := by
  simp only [maj, BitVec.getLsbD_xor, BitVec.getLsbD_and, majority_bit]

/-! ### The big sigmas (R132, R133) -/

theorem bsig0_eq (x : Word) : bsig0 x = x.rotateRight 2 ^^^ x.rotateRight 13 ^^^ x.rotateRight 22 := by
  rw [bsig0, rotr_eq_rotateRight x (by decide), rotr_eq_rotateRight x (by decide), rotr_eq_rotateRight x (by decide)]

theorem bsig1_eq (x : Word) : bsig1 x = x.rotateRight 6 ^^^ x.rotateRight 11 ^^^ x.rotateRight 25 := by
  rw [bsig1, rotr_eq_rotateRight x (by decide), rotr_eq_rotateRight x (by decide), rotr_eq_rotateRight x (by decide)]

/-! ### What ROUND and CHAIN write (R136, R137) -/

section
variable {s : State}

theorem execRound_of (h63 : s.t.toNat ≤ 63) : execRound s = .next s.afterRound :=
  if_pos h63

theorem State.afterRound_phase_eq : s.afterRound.phase = if s.t.toNat = 63 then 6#4 else 5#4 := by
  have hlast : s.t = 63#7 ↔ s.t.toNat = 63 := BitVec.toNat_inj.symm
  rw [State.afterRound_phase]
  simp only [hlast]

theorem addWords_get (x y : Words8) (j : Fin 8) : (addWords x y).get j = x.get j + y.get j := by
  fin_cases j <;> rfl

/-- With more blocks CHAIN goes on to LOAD of the next one; `BLK + 1` does not wrap. -/
theorem State.afterChain_of_more (hmore : s.blk.toNat + 1 < s.nblk) :
    s.afterChain.blk.toNat = s.blk.toNat + 1 ∧ s.afterChain.phase = phaseLoad := by
  have hm : s.moreBlocks = true := (State.moreBlocks_iff s).2 hmore
  rw [State.afterChain_blk, State.afterChain_phase, if_pos hm, if_pos hm]
  exact ⟨State.blk_succ_toNat hm, rfl⟩

/-- After the last block CHAIN keeps `BLK` and ends the pass. -/
theorem State.afterChain_of_last (hlast : s.nblk ≤ s.blk.toNat + 1) :
    s.afterChain.blk = s.blk ∧ s.afterChain.phase = s.passEnd := by
  have hm : ¬s.moreBlocks = true := fun h => Nat.not_lt.2 hlast ((State.moreBlocks_iff s).1 h)
  rw [State.afterChain_blk, State.afterChain_phase, if_neg hm, if_neg hm]
  exact ⟨rfl, rfl⟩

theorem State.passEnd_eq (s : State) : s.passEnd = if s.mode = true ∧ s.pass = false then 7#4 else 8#4 := by
  simp [State.passEnd]

end

/-! ### The statements -/

/-- Settles O49: the described message is the one the pass reads, and the 115 steps of a block compress it into `H`,
writing the Engine's registers only. -/
theorem blockSpanCompresses : Obligations.BlockSpanCompresses := by
  intro s m hphase hagenda hpass hm hblk
  obtain ⟨u, hrun, hh, -, -, hframe⟩ := run_block (.inl hagenda) hphase (hm.reads hpass) hblk
  exact ⟨u, hrun, hh, hframe⟩

/-- Settles O8: the two functions read at one bit. -/
theorem choiceAndMajorityBits : Obligations.ChoiceAndMajorityBits :=
  fun x y z i => ⟨ch_getLsbD x y z i, maj_getLsbD x y z i⟩

/-- Settles O23: in its range ROUND completes; `roundStep` with the big sigmas, `Ch` and `Maj` written out makes the eight
assignments, and `T = 63` decides the next phase. -/
theorem roundUpdatesTheWorkingVariables : Obligations.RoundUpdatesTheWorkingVariables := by
  rintro s a b c d e f g h h63 hv _ _ rfl rfl
  have hround : exec .round s = .next s.afterRound := execRound_of h63
  rw [hround, ← State.afterRound_phase_eq, ← bsig0_eq, ← bsig1_eq, State.afterRound, hv]
  rfl

/-- Settles O24: CHAIN completes in every state, with the sum in every word of `H`; whether a block is left decides
`BLK` and the next phase. -/
theorem chainAddsAndDecides : Obligations.ChainAddsAndDecides := by
  intro s
  refine ⟨s.afterChain, rfl, addWords_get s.h s.v, rfl, State.afterChain_of_more, fun hlast => ?_⟩
  rw [← State.passEnd_eq]
  exact State.afterChain_of_last hlast

/-- Settles O22: what SETUP writes. -/
theorem setupCopiesTheHash : Obligations.SetupCopiesTheHash :=
  fun _ => rfl

end Sys2Proof.Machine
end

section
/-! SUPPORT. The output serialiser (R150, R151): `ser` and the eight word views of R25 undo each other, and FINISH stores
the serialised `H`. -/

namespace Sys2Proof.Machine

/-! ### Reading the words back (R25, R150) -/

/-- The eight words a 32-byte string is read as, `DIGESTW[0]` to `DIGESTW[7]` (R25): the inverse of `ser`. -/
def digestWords (d : Vector Byte 32) : Words8 where
  a := digestWord d 0
  b := digestWord d 1
  c := digestWord d 2
  d := digestWord d 3
  e := digestWord d 4
  f := digestWord d 5
  g := digestWord d 6
  h := digestWord d 7

@[simp] theorem digestWords_get (d : Vector Byte 32) (j : Fin 8) : (digestWords d).get j = digestWord d j := by
  fin_cases j <;> rfl

/-- Byte `i` of the word read at `4j` is the byte at `4j + i`. -/
theorem byte32_digestWord (d : Vector Byte 32) (j : Fin 8) {i : Nat} (hi : i < 4) :
    byte32 (digestWord d j) i = byteAt d (4 * j.val + i) := by
  obtain ⟨h0, h1, h2, h3⟩ := byte32_be32 (byteAt d (4 * j.val)) (byteAt d (4 * j.val + 1)) (byteAt d (4 * j.val + 2))
    (byteAt d (4 * j.val + 3))
  match i, hi with
  | 0, _ => exact h0
  | 1, _ => exact h1
  | 2, _ => exact h2
  | 3, _ => exact h3

theorem digestWords_ser (x : Words8) : digestWords (ser x) = x := by
  simp only [digestWords, digestWordsAreTheHashWords x]
  rfl

/-- Two 32-byte strings with the same bytes at `4j + i`, for every word `j` and every `i` below 4, are the same. -/
theorem eq_of_byteAt_eq {d e : Vector Byte 32}
    (h : ∀ (j : Fin 8) (i : Nat), i < 4 → byteAt d (4 * j.val + i) = byteAt e (4 * j.val + i)) : d = e := by
  ext1 k hk
  have hbyte := h ⟨k / 4, by omega⟩ (k % 4) (by omega)
  simpa [byteAt, Nat.div_add_mod, hk] using hbyte

theorem ser_digestWords (d : Vector Byte 32) : ser (digestWords d) = d :=
  eq_of_byteAt_eq fun j i hi => by rw [byteAt_ser _ j hi, digestWords_get, byte32_digestWord d j hi]

/-- Byte `4j + i` of `ser(H)` as a number: the byte of `H[j]` with `3 - i` bytes below it (R150). -/
theorem byteAt_ser_toNat (x : Words8) (j : Fin 8) (i : Nat) (hi : i < 4) :
    (byteAt (ser x) (4 * j.val + i)).toNat = (x.get j).toNat / 2 ^ (8 * (3 - i)) % 256 := by
  rw [byteAt_ser x j hi, byte32_toNat]

/-! ### The statements -/

/-- Settles O6: reading the words back is an inverse of `ser` on both sides. -/
theorem serialisationIsBigEndianAndBijective : Obligations.SerialisationIsBigEndianAndBijective :=
  ⟨byteAt_ser_toNat, Function.LeftInverse.injective digestWords_ser, fun d => ⟨digestWords d, ser_digestWords d⟩⟩

/-- Settles O26: FINISH completes in every state, its one update is `State.afterFinish`, and the digest it stores is
`ser(H)`. -/
theorem finishDeliversTheDigest : Obligations.FinishDeliversTheDigest :=
  fun s => ⟨s.afterFinish, rfl, rfl, byteAt_ser_toNat s.h⟩

end Sys2Proof.Machine
end

section
/-! SUPPORT. The Double-Hash Composer (R160 to R162): the message of pass 2 is `MID`, its one block is `MID` and 32 bytes
of padding, and XFER stores the serialised `H` there. -/

namespace Sys2Proof.Machine

/-! ### The parts of the padding (R102) -/

theorem padByte_message {len : Nat} (m : Nat → Byte) {j : Nat} (hj : j < len) : padByte len m j = m j :=
  if_pos hj

theorem padByte_marker (len : Nat) (m : Nat → Byte) : padByte len m len = 0x80#8 := by
  rw [padByte, if_neg (Nat.lt_irrefl len), if_pos rfl]

theorem padByte_zeros {len : Nat} (m : Nat → Byte) {j : Nat} (hj : len < j) (hj' : j < 64 * nblkOf len - 8) :
    padByte len m j = 0x00#8 := by
  rw [padByte, if_neg (by omega), if_neg (by omega), if_pos hj']

/-- A 32-byte message has its zeros up to byte 55 of the one block. -/
theorem padByte_zeros_32 (m : Nat → Byte) {j : Nat} (hj : 32 < j) (hj' : j < 56) : padByte 32 m j = 0x00#8 :=
  padByte_zeros m hj hj'

/-! ### The message and the block of pass 2 (R100, R103, R162) -/

section
variable {s : State} (hpass : s.pass = true)
include hpass

theorem State.messageLen_of_pass : s.messageLen = 32 :=
  if_pos hpass

theorem State.messageByte_of_pass : s.messageByte = byteAt s.mid :=
  funext fun _ => if_pos hpass

theorem State.nblk_of_pass : s.nblk = 1 := by
  rw [State.nblk, State.messageLen_of_pass hpass, nblkOf]

variable (hblk : s.blk = 0)
include hblk

/-- A word of the block, as bytes of the padding of `MID`. -/
theorem State.blockWord_of_pass (k : Nat) :
    s.blockWord k = be32 (padByte 32 (byteAt s.mid) (4 * k)) (padByte 32 (byteAt s.mid) (4 * k + 1))
      (padByte 32 (byteAt s.mid) (4 * k + 2)) (padByte 32 (byteAt s.mid) (4 * k + 3)) := by
  have hoffset : 64 * s.blk.toNat + 4 * k = 4 * k := by rw [hblk]; exact Nat.zero_add _
  simp only [State.blockWord, State.messageLen_of_pass hpass, State.messageByte_of_pass hpass, hoffset]

theorem State.blockWord_message_of_pass {k : Nat} (hk : k < 8) :
    s.blockWord k =
      be32 (byteAt s.mid (4 * k)) (byteAt s.mid (4 * k + 1)) (byteAt s.mid (4 * k + 2)) (byteAt s.mid (4 * k + 3)) := by
  have hmid : ∀ j, j < 32 → padByte 32 (byteAt s.mid) j = byteAt s.mid j := fun _ => padByte_message _
  rw [State.blockWord_of_pass hpass hblk, hmid _ (by omega), hmid _ (by omega), hmid _ (by omega), hmid _ (by omega)]

theorem State.blockWord_marker_of_pass : s.blockWord 8 = 0x80000000#32 := by
  rw [State.blockWord_of_pass hpass hblk, padByte_marker 32, padByte_zeros_32 _ (by decide) (by decide),
    padByte_zeros_32 _ (by decide) (by decide), padByte_zeros_32 _ (by decide) (by decide)]
  decide

theorem State.blockWord_zeros_of_pass {k : Nat} (hk : 9 ≤ k) (hk' : k < 14) : s.blockWord k = 0#32 := by
  rw [State.blockWord_of_pass hpass hblk, padByte_zeros_32 _ (by omega) (by omega),
    padByte_zeros_32 _ (by omega) (by omega), padByte_zeros_32 _ (by omega) (by omega),
    padByte_zeros_32 _ (by omega) (by omega)]
  decide

/-- The last two words of the block are the halves of the bit length 256 (R162). -/
theorem State.blockWord_lengthField_of_pass : s.blockWord 14 = 0#32 ∧ s.blockWord 15 = 0x00000100#32 := by
  have hlast : s.blk.toNat + 1 = s.nblk := by rw [hblk, State.nblk_of_pass hpass]; rfl
  have hfield := State.blockWord_lengthField hlast
  rw [State.messageLen_of_pass hpass] at hfield
  constructor <;> bv_omega

end

/-! ### The statements -/

/-- Settles O20: in pass 2 the block is in range and needs no memory, so LOAD completes; its words are `MID`, the marker,
the zeros and the length field. -/
theorem secondPassLoadsTheIntermediateDigest : Obligations.SecondPassLoadsTheIntermediateDigest := by
  intro s hpass hblk
  have hrange : s.blk.toNat < s.nblk := by rw [hblk, State.nblk_of_pass hpass]; decide
  have hread : s.blockReadable = true := State.blockReadable_of fun hfirst => by simp [hpass] at hfirst
  have hload : exec .load s = .next s.afterLoad := execLoad_of hrange hread
  obtain ⟨h14, h15⟩ := State.blockWord_lengthField_of_pass hpass hblk
  refine ⟨s.afterLoad, hload, fun j hj => ?message, ?marker, fun j hj hj' => ?zeros, ?length⟩
  case message => rw [wordAt_afterLoad (by omega), State.blockWord_message_of_pass hpass hblk hj]
  case marker => rw [wordAt_afterLoad (by decide), State.blockWord_marker_of_pass hpass hblk]
  case zeros =>
    rw [wordAt_afterLoad (by omega)]
    obtain hlt | rfl : j < 14 ∨ j = 14 := by omega
    · exact State.blockWord_zeros_of_pass hpass hblk hj hlt
    · exact h14
  case length => rw [wordAt_afterLoad (by decide), h15]

/-- Settles O25: XFER completes in every state, its one update is `State.afterXfer`, and what it stores in `MID` is
`ser(H)`. -/
theorem xferMaterialisesTheIntermediateDigest : Obligations.XferMaterialisesTheIntermediateDigest :=
  fun s => ⟨s.afterXfer, rfl, rfl, byteAt_ser_toNat s.h⟩

end Sys2Proof.Machine
end

section
/-! SUPPORT. From the CMD write to the last step: each step but FINISH leaves BUSY at 1 and VALID at 0, and FINISH is the
last one (R151, R176). -/

namespace Sys2Proof.Machine

variable {s : State} {i : Instr}

/-- Only FINISH clears BUSY; the two commands set it (R31). -/
theorem State.after_busy (h : i ≠ .finish) (hbusy : s.busy = true) : (s.after i).busy = true := by
  cases i with
  | finish => exact absurd rfl h
  | sha256 | sha256d => rfl
  | _ => exact hbusy

/-- Only FINISH sets VALID, read from the other side. -/
theorem State.after_not_valid (h : i ≠ .finish) (hvalid : s.valid = false) : (s.after i).valid = false := by
  refine Bool.eq_false_iff.2 fun hv => ?_
  rw [State.valid_of_after_valid h hv] at hvalid
  cases hvalid

/-- With more than one step to go, the sequencer is neither idle nor at FINISH. -/
theorem not_idle_nor_finish_of_stepsLeft (h : 1 < stepsLeft i s) : i ≠ .idle ∧ i ≠ .finish :=
  ⟨by rintro rfl; exact absurd h (show ¬1 < 0 by decide), by rintro rfl; exact absurd h (show ¬1 < 1 by decide)⟩

/-- A command that is running still runs after any number of steps below those left to it. -/
theorem State.At.run_busy {k : Nat} (h : s.At i) (hk : k < stepsLeft i s) (hbusy : s.busy = true)
    (hvalid : s.valid = false) : ∃ t, core.run k s = .next t ∧ t.busy = true ∧ t.valid = false := by
  induction k generalizing s i with
  | zero => exact ⟨s, rfl, hbusy, hvalid⟩
  | succ k ih =>
    obtain ⟨hidle, hfinish⟩ := not_idle_nor_finish_of_stepsLeft (i := i) (s := s) (by omega)
    have hleft := stepsLeft_after h.range hidle
    rw [run_succ_of_step h.step_next]
    exact ih h.next (by omega) (State.after_busy hfinish hbusy) (State.after_not_valid hfinish hvalid)

/-- The same from just after a command start, counted in the blocks of the message. -/
theorem started_run_busy {m : List Byte} {k : Nat} (hs : s.CanStart) (hd : s.Describes m) (mode : Bool)
    (hk : k < (if mode then 119 else 2) + 115 * nblkOf m.length) :
    ∃ t, core.run k ((s.withAgenda []).started mode) = .next t ∧ t.busy = true ∧ t.valid = false :=
  (hs.at_init mode).run_busy (by rwa [stepsLeft_started hd mode]) rfl rfl

/-- Settles O52: the CMD write starts the command, which then has all its sequencer steps to go. -/
theorem busyUntilTheLastStep : Obligations.BusyUntilTheLastStep := by
  intro s m k hs hd
  refine ⟨fun hk => ?_, fun hk => ?_⟩
  · rw [run_add (run_one_of_step (step_start_sha256 hs))]
    exact started_run_busy hs hd false hk
  · rw [run_add (run_one_of_step (step_start_sha256d hs))]
    exact started_run_busy hs hd true hk

end Sys2Proof.Machine
end

section
/-! SUPPORT. The command starts and the host's register moves, each with the case in which it is refused (R170 to R178). -/

namespace Sys2Proof.Machine

variable {s : State} {i : Instr}

/-! ### Command starts that are refused (R172; log 9) -/

/-- The two commands differ in the MODE they write alone. -/
theorem exec_command (hi : i = .sha256 ∨ i = .sha256d) (s : State) : ∃ mode, exec i s = startCommand mode s := by
  obtain rfl | rfl := hi
  · exact ⟨false, rfl⟩
  · exact ⟨true, rfl⟩

theorem startCommand_busy (mode : Bool) (hbusy : s.busy = true) : startCommand mode s = .refused .commandWhileBusy :=
  if_pos hbusy

theorem startCommand_unwritten (mode : Bool) (hidle : s.busy = false)
    (hwritten : ¬(s.addrWritten = true ∧ s.lenWritten = true)) :
    startCommand mode s = .refused .unwrittenDescriptor := by
  have hbits : (s.addrWritten && s.lenWritten) = false := by simpa using hwritten
  simp [startCommand, hidle, hbits]

theorem startCommand_badDescriptor (mode : Bool) (hidle : s.busy = false) (haddr : s.addrWritten = true)
    (hlen : s.lenWritten = true) (hbad : s.descriptorValid = false) : startCommand mode s = .refused .badDescriptor := by
  simp [startCommand, hidle, haddr, hlen, hbad]

/-! ### Moves that decode are performed on the state without them (R80) -/

variable {rest : List HostMove}

theorem step_write_action {n v : Nat} {a : HostAction} (ha : s.agenda = .wr n v :: rest)
    (hd : decodeWrite s.addrW n v = .ok (.action a)) : step s = hostAction a (s.withAgenda rest) := by
  simp [step, fetch, ha, fetchWrite, hd]

theorem step_read {n : Nat} {r : ReadReg} (ha : s.agenda = .rd n :: rest) (hd : decodeRead n = .ok r) :
    step s = readReg r (s.withAgenda rest) := by
  simp [step, fetch, ha, fetchRead, hd, hostAction]

theorem step_rdDigest (ha : s.agenda = .rdDigest :: rest) : step s = readDigest (s.withAgenda rest) := by
  simp [step, fetch, ha, hostAction]

/-! ### What the registers answer (R175, R177, R178) -/

/-- STATUS is BUSY in bit 0 and VALID in bit 1, for each of the four values of the flags. -/
theorem State.statusWord_toNat (s : State) : s.statusWord.toNat = s.busy.toNat + 2 * s.valid.toNat := by
  rw [State.statusWord]
  cases s.busy <;> cases s.valid <;> decide

theorem digestWord_toNat (d : Vector Byte 32) (j : Fin 8) :
    (digestWord d j).toNat = (byteAt d (4 * j.val)).toNat * 2 ^ 24 + (byteAt d (4 * j.val + 1)).toNat * 2 ^ 16 +
      (byteAt d (4 * j.val + 2)).toNat * 2 ^ 8 + (byteAt d (4 * j.val + 3)).toNat :=
  be32_toNat _ _ _ _

/-! ### The obligations -/

/-- Settles O15: the conditions in the order they are tried; that the range wraps or cannot be read is what an invalid
descriptor is. -/
theorem illegalStartsAreRefused : Obligations.IllegalStartsAreRefused := by
  intro s i hi
  obtain ⟨mode, hexec⟩ := exec_command hi s
  rw [hexec]
  refine ⟨startCommand_busy mode, startCommand_unwritten mode, fun hidle haddr hlen hw hbad => ?_⟩
  refine startCommand_badDescriptor mode hidle haddr hlen (Bool.eq_false_iff.2 fun hvalid => ?_)
  obtain ⟨hfits, hread⟩ := (State.descriptorValid_iff hw).1 hvalid
  obtain hwrap | hunread := hbad
  · exact Nat.not_lt.2 hfits hwrap
  · exact hunread hread

/-- Settles O30: the value decodes to the action on its register, which BUSY refuses; a length that is too large does not
decode. -/
theorem descriptorWrites : Obligations.DescriptorWrites := by
  intro s a l v rest
  refine ⟨fun ha hlt => ⟨fun hidle => step_writeSrcAddr ha hidle hlt, fun hbusy => ?_⟩,
    fun ha => ⟨fun hidle => step_writeSrcLen ha hidle, fun hbusy => ?_⟩,
    fun ha _ hv => step_write_refused ha (decodeWrite_srcLen_tooLarge hv)⟩
  · rw [step_write_action ha (decodeWrite_srcAddr hlt)]
    exact if_pos hbusy
  · rw [step_write_action ha (decodeWrite_srcLen s.addrW l)]
    exact if_pos hbusy

/-- Settles O33: both reads test VALID and nothing else; the word read is `BE32` of its four bytes. -/
theorem digestReads : Obligations.DigestReads := by
  intro s j rest
  refine ⟨fun ha => ⟨step_readDigest ha, fun hv => ?_⟩, fun ha => ?_⟩
  · rw [step_rdDigest ha]
    exact if_neg (Bool.eq_false_iff.1 hv)
  · rw [step_read ha (decodeRead_of_encodeRead (r := .digestWord j) rfl)]
    exact ⟨fun hv => ⟨digestWord s.digest j, if_pos hv, digestWord_toNat s.digest j⟩,
      fun hv => if_neg (Bool.eq_false_iff.1 hv)⟩

/-- Settles O13: the start of a command with MODE 0. -/
theorem sha256Starts : Obligations.Sha256Starts :=
  fun _ hs => startCommand_of_canStart hs false

/-- Settles O14: the start of a command with MODE 1. -/
theorem sha256dStarts : Obligations.Sha256dStarts :=
  fun _ hs => startCommand_of_canStart hs true

/-- Settles O16: PHASE 0 names IDLE, which answers the state it is given. -/
theorem idleChangesNothing : Obligations.IdleChangesNothing :=
  ⟨fun _ => rfl, fun _ hp ha => step_of_seqTurn (i := .idle) (.inl ha) (congrArg Code.phase hp)⟩

/-- Settles O32: register 1 is STATUS, read with no condition. -/
theorem statusReads : Obligations.StatusReads :=
  fun s _ ha => ⟨s.statusWord, step_read ha rfl, s.statusWord_toNat⟩

/-- Settles O34: each of the two reads tests the bit that says its register was written. -/
theorem descriptorReads : Obligations.DescriptorReads := by
  intro s rest
  refine ⟨fun ha => ?_, fun ha => ?_⟩
  · rw [step_read (r := .srcAddr) ha rfl]
    exact ⟨fun hw => if_pos hw, fun hw => if_neg (Bool.eq_false_iff.1 hw)⟩
  · rw [step_read (r := .srcLen) ha rfl]
    exact ⟨fun hw => if_pos hw, fun hw => if_neg (Bool.eq_false_iff.1 hw)⟩

end Sys2Proof.Machine
end

section
/-! SUPPORT. The padding as a function of the message (R190), and what the two commands deliver (R193 to R195, R197). -/

namespace Sys2Proof.Machine

/-! ### The padding -/

/-- A 64-bit value is read back from its eight bytes (R10). -/
theorem bytes64_injective : Function.Injective bytes64 := by
  intro v v' h
  have hbyte : ∀ i, i < 8 → byte64 v i = byte64 v' i := fun i hi =>
    Option.some.inj (by rw [← getElem?_bytes64 v hi, ← getElem?_bytes64 v' hi, h])
  refine BitVec.eq_of_toNat_eq ?_
  rw [← be32_byte64_toNat v, ← be32_byte64_toNat v', hbyte 0 (by decide), hbyte 1 (by decide), hbyte 2 (by decide),
    hbyte 3 (by decide), hbyte 4 (by decide), hbyte 5 (by decide), hbyte 6 (by decide), hbyte 7 (by decide)]

/-- Below 2^61 bytes the length field tells the length, as `8 * L` then fits in its 64 bits (R190). -/
theorem length_eq_of_lengthField_eq {len len' : Nat} (hlen : len < 2 ^ 61) (hlen' : len' < 2 ^ 61)
    (h : bytes64 (BitVec.ofNat 64 (8 * len)) = bytes64 (BitVec.ofNat 64 (8 * len'))) : len = len' := by
  have hbits := congrArg BitVec.toNat (bytes64_injective h)
  simp only [BitVec.toNat_ofNat] at hbits
  omega

/-- Settles O11: the length, and the four parts of the padding. -/
theorem paddedBytesAreThePaddingFunction : Obligations.PaddedBytesAreThePaddingFunction :=
  fun m => ⟨length_pad m, fun _ => getElem?_pad m⟩

/-- Settles O12: the last eight bytes tell the length of the message, which is then the front of the padded message. -/
theorem paddingIsInjective : Obligations.PaddingIsInjective := by
  intro m m' hlen hlen' hpad
  obtain ⟨hfront, hfield⟩ := List.append_inj' hpad rfl
  have hsame : m.length = m'.length := length_eq_of_lengthField_eq hlen hlen' hfield
  rw [List.append_assoc, List.append_assoc] at hfront
  exact List.append_inj_left hfront hsame

/-! ### The second pass -/

variable {s u : State} {m : List Byte}

@[simp] theorem length_sha256 (m : List Byte) : (sha256 m).length = 32 := Vector.length_toList

/-- A digest is padded to one block (R162). -/
theorem nblkOf_length_sha256 (m : List Byte) : nblkOf (sha256 m).length = 1 := by
  rw [length_sha256, nblkOf]

/-- In pass 2 the current message is `MID` (R100, R103). -/
theorem State.reads_mid (hpass : s.pass = true) : s.Reads s.mid.toList where
  length := by rw [State.messageLen_of_pass hpass, Vector.length_toList]
  byte j _ := by
    rw [State.messageByte_of_pass hpass, byteAt, List.getD_eq_getElem?_getD, Vector.getElem?_toList]
  readable hfirst := by simp [hpass] at hfirst

/-- After XFER at the end of the pass over `m` the current message is `sha256(m)` (R161). -/
theorem State.reads_afterXfer (hh : s.h = chainBlocks m) : s.afterXfer.Reads (sha256 m) := by
  rw [sha256, ← hh]
  exact State.reads_mid rfl

/-! ### A command -/

/-- `u` differs from `s` at most in the registers a running command writes before FINISH: those of a pass, and PASS and MID,
which XFER writes. -/
def State.CommandOnly (s u : State) : Prop :=
  u = { s with phase := u.phase, blk := u.blk, t := u.t, h := u.h, v := u.v, w := u.w, pass := u.pass, mid := u.mid }

theorem State.EngineOnly.commandOnly (h : s.EngineOnly u) : s.CommandOnly u := by
  unfold State.EngineOnly at h
  rw [h]
  rfl

theorem State.CommandOnly.trans {x : State} (hu : s.CommandOnly u) (hx : u.CommandOnly x) : s.CommandOnly x := by
  unfold State.CommandOnly at *
  rw [hu] at hx
  exact hx

theorem State.commandOnly_afterXfer (s : State) : s.CommandOnly s.afterXfer := rfl

/-- The two passes of `SHA256D`, with XFER between them and FINISH after them, deliver `sha256d(m)` (R194, R197). -/
theorem run_two_passes_finish (hs : s.SeqTurn) (hp : s.phase = phaseInit) (hm : s.Reads m)
    (hmore : (s.mode && !s.pass) = true) :
    ∃ u : State, core.run (119 + 115 * nblkOf m.length) s = .next u.afterFinish ∧
      u.afterFinish.digest.toList = sha256d m ∧ s.CommandOnly u := by
  obtain ⟨u, hfirst, hh, hphase, hframe⟩ := run_pass hs hp hm
  rw [State.passEnd, hmore] at hphase
  have hturn : u.SeqTurn := hframe.seqTurn hs
  have hxfer : step u = .next u.afterXfer := step_of_seqTurn hturn (i := .xfer) (by rw [hphase]; rfl)
  obtain ⟨x, hsecond, hdigest, hframe'⟩ :=
    run_pass_finish (s := u.afterXfer) hturn rfl (State.reads_afterXfer hh) (Bool.and_false _)
  rw [nblkOf_length_sha256] at hsecond
  refine ⟨x, ?_, hdigest, hframe.commandOnly.trans (u.commandOnly_afterXfer.trans hframe'.commandOnly)⟩
  rw [show 119 + 115 * nblkOf m.length = 1 + 115 * nblkOf m.length + (1 + (2 + 115 * 1)) by omega, run_add hfirst,
    run_add (run_one_of_step hxfer), hsecond]

/-- What FINISH at the end of a command leaves: the block idle with VALID set, the host's side as the command found it, and
no outside move pending. -/
theorem State.CommandOnly.afterFinish_of_started {mode : Bool} (h : ((s.withAgenda []).started mode).CommandOnly u) :
    u.afterFinish.mem = s.mem ∧ u.afterFinish.srcAddr = s.srcAddr ∧ u.afterFinish.srcLen = s.srcLen ∧
      u.afterFinish.agenda = [] ∧ u.afterFinish.answers = s.answers := by
  rw [h]
  exact ⟨rfl, rfl, rfl, rfl, rfl⟩

/-- Settles O50: the start, and then one pass and FINISH. -/
theorem sha256CommandComputesTheDigest : Obligations.Sha256CommandComputesTheDigest := by
  intro s m hs hd
  have hstart := run_one_of_step (step_start_sha256 hs)
  obtain ⟨u, hrun, hdigest, hframe⟩ :=
    run_pass_finish (s := (s.withAgenda []).started false) (.inl rfl) rfl (State.Describes.reads hd rfl) rfl
  exact ⟨u.afterFinish, (run_add hstart _).trans hrun, rfl, rfl, rfl, hdigest, hframe.commandOnly.afterFinish_of_started⟩

/-- Settles O51: the start, and then two passes and FINISH. -/
theorem sha256dCommandComputesTheDoubleDigest : Obligations.Sha256dCommandComputesTheDoubleDigest := by
  intro s m hs hd
  have hstart := run_one_of_step (step_start_sha256d hs)
  obtain ⟨u, hrun, hdigest, hframe⟩ :=
    run_two_passes_finish (s := (s.withAgenda []).started true) (.inl rfl) rfl (State.Describes.reads hd rfl) rfl
  exact ⟨u.afterFinish, (run_add hstart _).trans hrun, rfl, rfl, rfl, hdigest, hframe.afterFinish_of_started⟩

/-- Settles O55: the two DIGESTs are the same function of `m`, as `sha256d(m)` is `sha256(sha256(m))`. -/
theorem compositionLaw : Obligations.CompositionLaw := by
  intro s s' m hs hd hs' hd'
  obtain ⟨t, ht, -, -, -, htdigest, -⟩ := sha256CommandComputesTheDigest s m hs hd
  obtain ⟨u, hu, -, -, -, hudigest, -⟩ := sha256dCommandComputesTheDoubleDigest s m hs hd
  obtain ⟨v, hv, -, -, -, hvdigest, -⟩ := sha256CommandComputesTheDigest s' (sha256 m) hs' hd'
  rw [nblkOf_length_sha256] at hv
  exact ⟨t, u, v, ht, htdigest, hu, hv, Vector.toList_inj.1 (hudigest.trans hvdigest.symm)⟩

end Sys2Proof.Machine
end

section
/-! SUPPORT. The well-formedness of a state (R231): it holds after reset, every micro-operation, command start and outside
action keeps it, and under it the sequencer never stops (R210, R215). -/

namespace Sys2Proof.Machine

variable {s t : State} {i : Instr}

/-! ### What well-formedness says of the sequencer's position -/

/-- The codes 0 to 8 are those of the micro-operations (R84). -/
theorem phase_le_eight_iff : ∀ p : BitVec 4, p.toNat ≤ 8 ↔ (decodePhase p).isSome := by decide

theorem encode_injective : Function.Injective encode := fun i j h =>
  Option.some.inj (((decode_eq_some_iff _ i).2 rfl).symm.trans ((decode_eq_some_iff _ j).2 h))

/-- A PHASE that names `i` is the code of `j` exactly when the two are the same. -/
theorem phase_eq_iff {p c : BitVec 4} {j : Instr} (hp : Code.phase p = encode i) (hc : Code.phase c = encode j) :
    p = c ↔ i = j := by
  rw [← Code.phase.injEq, hp, hc, encode_injective.eq_iff]

/-- The position clauses of R231 are the range of the micro-operation PHASE names. -/
theorem inRange_iff (hp : Code.phase s.phase = encode i) :
    InRange i s ↔ (s.phase = phaseExpand → 16 ≤ s.t.toNat ∧ s.t.toNat ≤ 63) ∧
      (s.phase = phaseRound → s.t.toNat ≤ 63) ∧ (s.absorbing → s.blk.toNat < s.nblk) := by
  cases i with
  | sha256 | sha256d => cases hp
  | _ => simp [InRange, State.absorbing, Code.phase.inj hp, and_comm, and_assoc]

theorem State.Inv.inRange (h : s.Inv) (hp : Code.phase s.phase = encode i) : InRange i s :=
  (inRange_iff hp).2 ⟨h.expand_t, h.round_t, h.blk_lt⟩

/-- PHASE names a micro-operation. -/
theorem State.Inv.exists_phase (h : s.Inv) : ∃ i, Code.phase s.phase = encode i := by
  obtain ⟨i, hi⟩ := Option.isSome_iff_exists.1 ((phase_le_eight_iff s.phase).1 h.phase_used)
  exact ⟨i, (decode_eq_some_iff _ _).1 hi⟩

theorem State.Inv.phase_idle (h : s.Inv) (hbusy : s.busy = false) : s.phase = phaseIdle := by
  by_contra hne
  rw [h.busy_iff.2 hne] at hbusy
  cases hbusy

/-- In an idle block no command runs, so only the registers and memory are left to ask about. -/
theorem State.inv_of_idle (hphase : s.phase = phaseIdle) (hbusy : s.busy = false) (hpass : s.pass = true → s.mode = true)
    (haddr : s.srcAddr < 2 ^ s.addrW) (hwf : s.mem.wf = true) (hwithin : s.mem.within s.addrW = true) : s.Inv where
  phase_used := by simp [hphase]
  busy_iff := by simp [hphase, hbusy]
  valid_idle _ := hphase
  pass_mode := hpass
  expand_t := by simp [hphase]
  round_t := by simp [hphase]
  blk_lt := by simp [State.absorbing, hphase]
  xfer_pass := by simp [hphase]
  addr_lt := haddr
  mem_wf := hwf
  mem_within := hwithin
  written := by simp [hbusy]
  fits := by simp [hbusy]
  readable := by simp [hbusy]

/-- The reset input leaves the block idle, with PASS 0 and the address 0 (R230). -/
theorem State.inv_resetBlock (hwf : s.mem.wf = true) (hwithin : s.mem.within s.addrW = true) : s.resetBlock.Inv :=
  State.inv_of_idle rfl rfl (absurd · Bool.false_ne_true) (Nat.two_pow_pos _) hwf hwithin

/-- Settles O38: the state after reset is a reset of itself, and its memory is empty. -/
theorem resetStateIsWellFormed : Obligations.ResetStateIsWellFormed :=
  State.inv_resetBlock (s := State.reset) Memory.wf_reset rfl

/-! ### The micro-operations keep it -/

@[simp] theorem State.after_addrW (s : State) (i : Instr) : (s.after i).addrW = s.addrW := by cases i <;> rfl

/-- No micro-operation sets BUSY (R31). -/
theorem State.busy_of_after_busy (hp : Code.phase s.phase = encode i) (hbusy : (s.after i).busy = true) :
    s.busy = true := by
  cases i with
  | sha256 | sha256d => cases hp
  | finish => cases hbusy
  | _ => exact hbusy

/-- Only FINISH, and IDLE itself, lead to IDLE (R34). -/
theorem followedBy_eq_idle_iff : followedBy i s = .idle ↔ i = .idle ∨ i = .finish := by
  cases i with
  | expand | round => simp only [followedBy]; split <;> decide
  | chain =>
    simp only [followedBy]
    split
    · decide
    · split <;> decide
  | _ => simp [followedBy]

/-- Only a CHAIN that ends pass 1 of SHA256D leads to XFER (R137). -/
theorem followedBy_eq_xfer (h : followedBy i s = .xfer) : i = .chain ∧ s.mode = true ∧ s.pass = false := by
  cases i with
  | expand | round =>
    simp only [followedBy] at h
    split at h <;> cases h
  | chain =>
    simp only [followedBy] at h
    split at h
    · cases h
    · split at h
      case isTrue hmode => exact ⟨rfl, by simpa using hmode⟩
      case isFalse => cases h
  | _ => cases h

/-- BUSY is cleared where PHASE comes to IDLE. -/
theorem State.Inv.after_busy_iff (h : s.Inv) (hp : Code.phase s.phase = encode i) :
    (s.after i).busy = true ↔ (s.after i).phase ≠ phaseIdle := by
  have hbusy : s.busy = true ↔ i ≠ .idle := h.busy_iff.trans (phase_eq_iff hp rfl).not
  rw [Ne, phase_eq_iff (j := .idle) (phase_after hp) rfl, followedBy_eq_idle_iff]
  cases i with
  | sha256 | sha256d => cases hp
  | finish => simp [State.after]
  | _ => simpa [State.after] using hbusy

/-- VALID is 1 after FINISH, which comes to IDLE, and otherwise where it was 1 before, in IDLE. -/
theorem State.Inv.after_valid_idle (h : s.Inv) (hp : Code.phase s.phase = encode i) (hvalid : (s.after i).valid = true) :
    (s.after i).phase = phaseIdle := by
  rw [phase_eq_iff (j := .idle) (phase_after hp) rfl, followedBy_eq_idle_iff]
  by_cases hi : i = .finish
  · exact .inr hi
  · exact .inl ((phase_eq_iff hp rfl).1 (h.valid_idle (State.valid_of_after_valid hi hvalid)))

/-- XFER, which sets PASS, is performed with MODE = 1 only (R161). -/
theorem State.Inv.after_pass_mode (h : s.Inv) (hp : Code.phase s.phase = encode i) (hpass : (s.after i).pass = true) :
    (s.after i).mode = true := by
  cases i with
  | sha256 | sha256d => cases hp
  | xfer =>
    obtain ⟨hmode, -⟩ := h.xfer_pass (Code.phase.inj hp)
    exact hmode
  | _ => exact h.pass_mode hpass

theorem State.after_xfer_pass (hp : Code.phase s.phase = encode i) (hxfer : (s.after i).phase = phaseXfer) :
    (s.after i).mode = true ∧ (s.after i).pass = false := by
  obtain ⟨rfl, hmode, hpass⟩ := followedBy_eq_xfer ((phase_eq_iff (phase_after hp) rfl).1 hxfer)
  exact ⟨hmode, hpass⟩

/-- The micro-operation PHASE names keeps well-formedness: the position stays in range, the flags follow PHASE, and a
command that still runs was running before, on the same descriptor and memory. -/
theorem State.Inv.after (h : s.Inv) (hp : Code.phase s.phase = encode i) : (s.after i).Inv := by
  have hphase : Code.phase (s.after i).phase = encode (followedBy i s) := phase_after hp
  have hran : (s.after i).busy = true → s.busy = true := State.busy_of_after_busy hp
  obtain ⟨hexpand, hround, hblk⟩ := (inRange_iff hphase).1 (inRange_after (h.inRange hp))
  exact {
    phase_used := (phase_le_eight_iff _).2 (Option.isSome_iff_exists.2 ⟨_, (decode_eq_some_iff _ _).2 hphase⟩)
    busy_iff := h.after_busy_iff hp
    valid_idle := h.after_valid_idle hp
    pass_mode := h.after_pass_mode hp
    expand_t := hexpand
    round_t := hround
    blk_lt := hblk
    xfer_pass := State.after_xfer_pass hp
    addr_lt := by simpa using h.addr_lt
    mem_wf := by simpa using h.mem_wf
    mem_within := by simpa using h.mem_within
    written := fun hbusy => by simpa using h.written (hran hbusy)
    fits := fun hbusy => by simpa using h.fits (hran hbusy)
    readable := fun hbusy => by simpa [State.messageReadable, State.memRead] using h.readable (hran hbusy) }

/-! ### Command starts and outside actions keep it -/

/-- What a command start tests is what a running command relies on (R172). -/
theorem State.Inv.of_startCommand {mode : Bool} (h : s.Inv) (hstart : startCommand mode s = .next t) : t.Inv := by
  obtain ⟨-, haddr, hlen, hvalid, rfl⟩ := startCommand_next hstart
  obtain ⟨hfits, hread⟩ := (State.descriptorValid_iff h.mem_wf).1 hvalid
  exact {
    phase_used := by simp
    busy_iff := by simp
    valid_idle := by simp
    pass_mode := by simp
    expand_t := by simp
    round_t := by simp
    blk_lt := by simp [State.absorbing]
    xfer_pass := by simp
    addr_lt := h.addr_lt
    mem_wf := h.mem_wf
    mem_within := h.mem_within
    written := fun _ => ⟨haddr, hlen⟩
    fits := fun _ => hfits
    readable := fun _ => hread }

/-- Another memory in canonical form, on which a running command still finds its message, keeps well-formedness. -/
theorem State.Inv.withMemory {m : Memory} (h : s.Inv) (hwf : m.wf = true) (hwithin : m.within s.addrW = true)
    (hread : s.busy = true → (s.withMemory m).messageReadable) : (s.withMemory m).Inv := by
  cases h
  constructor <;> assumption

/-- A store outside the message of a running command, at an address (R68). -/
theorem State.Inv.withByte {a : Addr} (h : s.Inv) (b : Byte) (ha : a < 2 ^ s.addrW) : (s.withByte a b).Inv := by
  refine h.withMemory (Memory.wf_write h.mem_wf) (Memory.within_write h.mem_within ha) fun hbusy j hj => ?_
  show ((s.mem.write a b).read (s.srcAddr + j)).isSome
  rw [Memory.read_write]
  split
  · rfl
  · exact h.readable hbusy j hj

/-- An unmapping outside the message of a running command (R235). -/
theorem State.Inv.withoutByte {a : Addr} (h : s.Inv) (hfree : ¬(s.busy = true ∧ s.inMessage a = true)) :
    (s.withoutByte a).Inv := by
  refine h.withMemory (Memory.wf_unmap h.mem_wf) (Memory.within_unmap h.mem_within) fun hbusy j hj => ?_
  have hne : a ≠ s.srcAddr + j := by
    rintro rfl
    exact hfree ⟨hbusy, (s.inMessage_iff _).2 ⟨Nat.le_add_right _ _, Nat.add_lt_add_left hj _⟩⟩
  show ((s.mem.unmap a).read (s.srcAddr + j)).isSome
  rw [Memory.read_unmap, if_neg hne]
  exact h.readable hbusy j hj

/-- An outside action keeps well-formedness: the descriptor is written while idle, memory outside a running command's
message or by a store, and a read changes nothing of the block. -/
theorem State.Inv.of_hostAction {a : HostAction} (h : s.Inv) (haddr : ∀ x, a = .setSrcAddr x → x < 2 ^ s.addrW)
    (hact : hostAction a s = .next t) : t.Inv := by
  have hnext : ActionNext a s t := hostAction_next hact
  cases a with
  | setSrcAddr v =>
    obtain ⟨hbusy, rfl⟩ := hnext
    exact State.inv_of_idle (h.phase_idle hbusy) hbusy h.pass_mode (haddr v rfl) h.mem_wf h.mem_within
  | setSrcLen v =>
    obtain ⟨hbusy, rfl⟩ := hnext
    exact State.inv_of_idle (h.phase_idle hbusy) hbusy h.pass_mode h.addr_lt h.mem_wf h.mem_within
  | read r =>
    cases r with
    | status =>
      obtain rfl := hnext
      exact State.inv_answer h _
    | srcAddr | srcLen | digestWord =>
      obtain ⟨-, rfl⟩ := hnext
      exact State.inv_answer h _
  | readDigest =>
    obtain ⟨-, rfl⟩ := hnext
    exact State.inv_answer h _
  | pollDone =>
    obtain rfl := hnext
    exact State.inv_answer h _
  | memStore x b =>
    obtain ⟨hx, -, rfl⟩ := hnext
    exact h.withByte b ((s.isAddress_iff x).1 hx)
  | memUnmap x =>
    obtain ⟨-, hfree, rfl⟩ := hnext
    exact h.withoutByte hfree
  | reset =>
    obtain rfl := hnext
    exact State.inv_resetBlock h.mem_wf h.mem_within

/-- Settles O39: the three things a step can be, each on the state with only the pending moves changed. -/
theorem stepKeepsWellFormedness : Obligations.StepKeepsWellFormedness := by
  intro s t h hstep
  obtain ⟨i, ag, hp, hexec⟩ | ⟨mode, ag, hstart⟩ | ⟨a, m, ag, -, ⟨haddr, -⟩, hact⟩ := step_next hstep
  · rw [exec_eq_after hexec]
    exact (State.inv_withAgenda h ag).after hp
  · exact (State.inv_withAgenda h ag).of_startCommand hstart
  · exact (State.inv_withAgenda h ag).of_hostAction haddr hact

/-! ### Under it the sequencer never stops -/

/-- In a well-formed state the micro-operation PHASE names completes: its position is in range, and LOAD belongs to a
running command, whose message can be read. -/
theorem State.Inv.exec_eq (h : s.Inv) (hp : Code.phase s.phase = encode i) : exec i s = .next (s.after i) := by
  have hrange : InRange i s := h.inRange hp
  cases i with
  | sha256 | sha256d => cases hp
  | load =>
    have hbusy : s.busy = true := h.busy_iff.2 ((phase_eq_iff (j := .idle) hp rfl).not.2 (by decide))
    exact execLoad_of hrange (State.blockReadable_of fun _ => h.readable hbusy)
  | expand =>
    obtain ⟨-, h16, h63⟩ := hrange
    exact execExpand_of h16 h63
  | round =>
    obtain ⟨-, h63⟩ := hrange
    exact execRound_of h63
  | _ => rfl

/-- Settles O40: with no move pending, a pass or a failing poll at the head the sequencer moves; a poll that finds VALID
set is answered. -/
theorem sequencerNeverStops : Obligations.SequencerNeverStops := by
  intro s h hturn
  obtain ⟨i, hp⟩ := h.exists_phase
  obtain ha | ⟨rest, ha⟩ | ⟨rest, ha⟩ := hturn
  · exact ⟨_, (step_of_seqTurn (.inl ha) hp).trans (h.exec_eq hp)⟩
  · exact ⟨_, (step_of_pass ha hp).trans ((State.inv_withAgenda h rest).exec_eq hp)⟩
  · cases hvalid : s.valid with
    | true => exact ⟨_, step_waitValid_done ha hvalid⟩
    | false => exact ⟨_, (step_of_seqTurn (.inr ⟨hvalid, rest, ha⟩) hp).trans (h.exec_eq hp)⟩

end Sys2Proof.Machine
end

section
/-! SUPPORT. What does not reach the sequencer: the data registers and memory do not reach its position (R241), the host's
side does not reach what it does (R214), and the reset input asks for nothing (R230, R232). -/

namespace Sys2Proof.Machine

variable {s s' t : State} {i : Instr} {rest : List HostMove}

/-! ### The position (R241) -/

/-- The same position of the sequencer, in commands of the same MODE and message length. -/
structure SamePosition (s s' : State) : Prop where
  phase : s.phase = s'.phase
  pass : s.pass = s'.pass
  mode : s.mode = s'.mode
  blk : s.blk = s'.blk
  t : s.t = s'.t
  len : s.srcLen = s'.srcLen

theorem SamePosition.moreBlocks (h : SamePosition s s') : s.moreBlocks = s'.moreBlocks := by
  have hnblk : s.nblk = s'.nblk := by simp only [State.nblk, State.messageLen, h.pass, h.len]
  rw [State.moreBlocks, State.moreBlocks, h.blk, hnblk]

/-- The same instruction takes machines in the same position to the same position. -/
theorem SamePosition.after (h : SamePosition s s') : SamePosition (s.after i) (s'.after i) := by
  cases i with
  | sha256 | sha256d => exact ⟨rfl, rfl, rfl, h.blk, h.t, h.len⟩
  | idle => exact h
  | init => exact ⟨rfl, h.pass, h.mode, rfl, h.t, h.len⟩
  | load | setup => exact ⟨rfl, h.pass, h.mode, h.blk, rfl, h.len⟩
  | expand | round =>
    constructor <;> simp [State.after, h.pass, h.mode, h.blk, h.t, h.len]
  | chain => constructor <;> simp [State.after, h.moreBlocks, h.pass, h.mode, h.blk, h.t, h.len]
  | xfer => exact ⟨rfl, rfl, h.mode, h.blk, h.t, h.len⟩
  | finish => exact ⟨rfl, h.pass, h.mode, h.blk, h.t, h.len⟩

/-- Settles O46: what an instruction writes to the position it computes from the position, MODE and SRC_LEN. -/
theorem controlFlowIgnoresData : Obligations.ControlFlowIgnoresData := by
  intro i s s' t t' hphase hpass hmode hblk ht hlen hs hs'
  have hafter : SamePosition (s.after i) (s'.after i) := SamePosition.after ⟨hphase, hpass, hmode, hblk, ht, hlen⟩
  rw [exec_eq_after hs, exec_eq_after hs']
  exact ⟨hafter.phase, hafter.pass, hafter.mode, hafter.blk, hafter.t⟩

/-! ### The host's side (R214) -/

/-- The state with other pending moves and other answers. -/
def State.withHostSide (s : State) (ag : List HostMove) (an : List HostValue) : State :=
  { s with agenda := ag, answers := an }

theorem startCommand_of (mode : Bool) (hidle : s.busy = false) (haddr : s.addrWritten = true) (hlen : s.lenWritten = true)
    (hvalid : s.descriptorValid = true) : startCommand mode s = .next (s.started mode) := by
  simp [startCommand, hidle, haddr, hlen, hvalid]

/-- What an instruction tests and what it writes are the same whatever the host has asked and been told. -/
theorem exec_withHostSide (ag : List HostMove) (an : List HostValue) (h : exec i s = .next t) :
    exec i (s.withHostSide ag an) = .next (t.withHostSide ag an) := by
  have hnext : ExecNext i s t := exec_next h
  cases i with
  | sha256 | sha256d =>
    obtain ⟨hidle, haddr, hlen, hvalid, rfl⟩ := hnext
    exact startCommand_of (s := s.withHostSide ag an) _ hidle haddr hlen hvalid
  | load =>
    obtain ⟨hblk, hread, rfl⟩ := hnext
    exact execLoad_of (s := s.withHostSide ag an) hblk hread
  | expand =>
    obtain ⟨h16, h63, rfl⟩ := hnext
    exact execExpand_of (s := s.withHostSide ag an) h16 h63
  | round =>
    obtain ⟨h63, rfl⟩ := hnext
    exact execRound_of (s := s.withHostSide ag an) h63
  | _ =>
    obtain rfl := hnext
    rfl

/-- A pass that completes was the micro-operation PHASE names. -/
theorem step_pass_next (ha : s.agenda = .pass :: rest) (h : step s = .next t) :
    ∃ i, Code.phase s.phase = encode i ∧ exec i (s.withAgenda rest) = .next t := by
  cases hdecode : decode (.phase s.phase) with
  | some i =>
    have hp : Code.phase s.phase = encode i := (decode_eq_some_iff _ _).1 hdecode
    exact ⟨i, hp, (step_of_pass ha hp).symm.trans h⟩
  | none => simp [step, fetch, ha, fetchPhase, hdecode] at h

/-- A read of STATUS completes at any time (R175). -/
theorem step_readStatus (ha : s.agenda = .rd 1 :: rest) :
    step s = .next ((s.withAgenda rest).answer (.status s.statusWord)) :=
  step_read ha rfl

/-- Settles O48: the micro-operation does the same after the read, which leaves its answer and nothing else. -/
theorem statusReadsDoNotDisturb : Obligations.StatusReadsDoNotDisturb := by
  intro s t rest h
  obtain ⟨i, hp, hexec⟩ := step_pass_next (s := s.withAgenda (.pass :: .rd 1 :: rest)) rfl h
  have hagenda : t.agenda = .rd 1 :: rest := by rw [exec_eq_after hexec, State.after_agenda, State.withAgenda_agenda]
  have hpass : step ((s.withAgenda (.pass :: rest)).answer (.status s.statusWord)) =
      .next (t.withHostSide rest (.status s.statusWord :: s.answers)) := by
    rw [step_of_pass (s := (s.withAgenda (.pass :: rest)).answer _) rfl hp]
    exact exec_withHostSide (s := s.withAgenda (.rd 1 :: rest)) rest (.status s.statusWord :: s.answers) hexec
  exact ⟨_, _, _, step_readStatus (s := s.withAgenda (.rd 1 :: .pass :: rest)) rfl, hpass, step_readStatus hagenda, rfl⟩

/-! ### The reset input (R230, R232) -/

/-- Settles O36: a reset move decodes to the one outside action that tests nothing. -/
theorem resetAbandonsTheCommand : Obligations.ResetAbandonsTheCommand := by
  intro s rest ha
  have hstep : step s = .next (s.withAgenda rest).resetBlock := by simp [step, fetch, ha, hostAction]
  exact ⟨hstep, rfl, rfl, rfl, rfl, rfl⟩

end Sys2Proof.Machine
end
